-- ==== Sys2Proof/Word.lean ====
section
/-! DEFINITION. The widths of the block's values (00_scope.md R7, R9; 30_encoding.md R92): everything is unsigned. -/

namespace Sys2Proof

/-- A byte of the wire, of the intake buffer or of the staging buffer (R7). -/
abbrev Byte := BitVec 8

/-- A 16-bit value: a register-table entry, a start address, a count, a checksum (R7). -/
abbrev Word := BitVec 16

end Sys2Proof
end

