-- ==== Sys2Proof/Config.lean ====
section
/-! DEFINITION. The block's parameters (00_scope.md R6), the constants the spec fixes, and the free values
(93_implementation_defined.md U3, U8). -/

namespace Sys2Proof

/-- `BOUNDS_POLICY` of R6 and U1: what a verified read request outside the register table does. -/
inductive BoundsPolicy where
  /-- No response, full reset (R203; the spec's default). -/
  | drop
  /-- The model refuses the run at that `RESPOND` (U1, for claims meant to cover the original firmware). -/
  | refuse
deriving DecidableEq, Repr

/-- The parameters of R6. `C`, `MAX_WAIT` and `T` are OPEN there, so they are fields and statements hold for
every value the constraints admit (log 1). `N` is the length of `regInit`. -/
structure Config where
  /-- `C`, the capacity of the intake buffer in bytes. -/
  cap       : Nat
  /-- `MAX_WAIT`, the number of consecutive incomplete observations that forces a full reset. -/
  maxWait   : Nat
  /-- `T`, the capacity of the transmit staging buffer in bytes. -/
  txCap     : Nat
  /-- `SHORT_WAIT`, whether a poll that finds fewer than 8 bytes is an incomplete observation (D7). -/
  shortWait : Bool
  /-- `BOUNDS_POLICY` (D8). -/
  bounds    : BoundsPolicy
  /-- `REG_INIT`, the contents of the register table, entry 0 first (D15). -/
  regInit   : List Word
deriving DecidableEq, Repr

namespace Config

/-- `N`, the number of entries of the register table (R6). -/
abbrev tableSize (c : Config) : Nat := c.regInit.length

/-- `REG_INIT` of the reference configuration (R6, R20). -/
def referenceTable : List Word :=
  [0x1122, 0x3344, 0x5566, 0x7788, 0x9900, 0xAABB, 0x1234, 0x4565, 0x5548, 0x9969]

/-- The configuration State.reset carries: the reference table, the spec's defaults for its two switches, and
EXAMPLE values for the three OPEN parameters. DESIGN CHOICE (log 1, log 2), unsafe for a claim that names them. -/
def reference : Config :=
  { cap := 32, maxWait := 4, txCap := 25, shortWait := false, bounds := .drop, regInit := referenceTable }

/-- `crc` after the `k`-th free draw: what the working register holds once `RESET` has made it unspecified
(R32, R250), and between two computations of the scanner (U3). Nothing constrains it; log 6, log 7. -/
opaque freeCrc : Nat → Word

/-- How many bytes of a response had left when `RESET` cut it short, at the `k`-th free draw (U8). Nothing
constrains it; log 10. -/
opaque freeCut : Nat → Nat

end Config

/-- `FRAME_LEN` (R6): the length of a request frame in bytes. -/
abbrev frameLen : Nat := 8
/-- `DEVICE_ID` (R6): the address byte of this slave. -/
abbrev deviceId : Byte := 0x01
/-- `CMD_READ` (R6): the recognised read command. -/
abbrev cmdRead : Byte := 0x03
/-- `CMD_WRITE` (R6): the defined but unimplemented write command. -/
abbrev cmdWrite : Byte := 0x04
/-- `CRC_POLY` (R6): the constant XORed in after a 1 is shifted out. -/
abbrev crcPoly : Word := 0xA001
/-- `CRC_INIT` (R6): the initial value of the CRC register. -/
abbrev crcInit : Word := 0xFFFF

end Sys2Proof
end

