-- ==== Sys2Proof/Syntax.lean ====
section
/-! DEFINITION. The operations and frame commands of opcode_table.json, one constructor a row, and the words that
select them (30_encoding.md R80, R81, R90, R91, R93 to R95). -/

namespace Sys2Proof

/-- One constructor per row of opcode_table.json, in the table's order. -/
inductive Instr where
  /-- `READ`: the request frame `[01 03 start count checksum]` as a full candidate at the cursor (R82, R90, R160). -/
  | read (start count checksum : Word)
  /-- `WRITE`: the request frame `[01 04 ...]` as a full candidate at the cursor (R90, R159). -/
  | write (start count checksum : Word)
  /-- `RESPONSE`: the response frame with header `[01 03 n]`, produced by the builder (R83, R201). -/
  | response (n : Byte)
  /-- `RESET`, the hardware reset (R250). -/
  | reset
  /-- `POLL_START` (R150). -/
  | pollStart
  /-- `RX_PUSH d` (R130, R131). -/
  | rxPush (d : Byte)
  /-- `RX_FAULT` (R133). -/
  | rxFault
  /-- `SCAN_STEP` (R153). -/
  | scanStep
  /-- `RESPOND` (R200). -/
  | respond
  /-- `CRC_INIT_OP` (R113). -/
  | crcInitOp
  /-- `CRC_BYTE d` (R114). -/
  | crcByte (d : Byte)
deriving DecidableEq, Repr

/-- A word that selects an operation, tagged with the format of R81 it belongs to. -/
inductive PortWord where
  /-- A request frame as one 64-bit number, byte 0 most significant (R91). -/
  | req (frame : BitVec 64)
  /-- The 3-byte header of a response frame, byte 0 most significant (R83). -/
  | rsp (header : BitVec 24)
  /-- `CTLPORT {rst, poll}` (R93). -/
  | ctl (v : BitVec 2)
  /-- `RXPORT {rx_fault, rx_valid, rx_data[7:0]}` (R93). -/
  | rx (v : BitVec 10)
  /-- The internal vector `FSM {pass_active, st[1:0]}` (R94). -/
  | fsm (v : BitVec 3)
  /-- `CRCPORT {crc_init, crc_en, crc_din[7:0]}` (R95). -/
  | crc (v : BitVec 10)
deriving DecidableEq, Repr

/-- Why a word selects no instruction. None of these is an error of the block: R90, "No command value is illegal
and none traps". -/
inductive Reject where
  /-- The port's pattern for "none" (R93, R95), or an FSM vector with nothing to do (R94). -/
  | noOperation
  /-- A frame whose first byte is not `DEVICE_ID`: noise, "never this slave's" (R84, R99). -/
  | foreignDevice
  /-- A frame whose command byte names no row of the table: skipped, R159. -/
  | unrecognizedCommand (c : Byte)
  /-- A 24-bit word that is not a response header `[01 03 n]` (R83). -/
  | notResponseHeader
  /-- An FSM vector no run reaches: `st = 3` or `pass_active` with `RESOLVED` (R99, R27; log 21). -/
  | unreachableFsm
deriving DecidableEq, Repr

end Sys2Proof
end

