-- ==== Sys2Proof/WellFormed.lean ====
section
/-! DEFINITION. The checks on configurations (00_scope.md R6; 93_implementation_defined.md U7) and on instructions
(30_encoding.md R87). -/

namespace Sys2Proof

/-- The constraints of R6: `C >= 8`, `MAX_WAIT >= 1`, `T >= 5 + 2*N`, `N <= 127`. Outside them the configuration
is ill-formed and the model refuses it (U7). -/
def Config.wf (c : Config) : Bool :=
  decide (8 ≤ c.cap) && decide (1 ≤ c.maxWait) && decide (5 + 2 * c.tableSize ≤ c.txCap)
    && decide (c.tableSize ≤ 127)

/-- Every operand value is encodable; a response's `byteCount` is `2*count`, so an odd one is no response
(R87, R202). -/
def Instr.wf : Instr → Bool
  | .read _ _ _ => true
  | .write _ _ _ => true
  | .response n => !n.getLsbD 0
  | .reset => true
  | .pollStart => true
  | .rxPush _ => true
  | .rxFault => true
  | .scanStep => true
  | .respond => true
  | .crcInitOp => true
  | .crcByte _ => true

end Sys2Proof
end

