-- ==== Sys2Proof/Decode.lean ====
section
/-! DEFINITION. Byte order, the frame layouts as bytes and as words, the decoder and the encoder (30_encoding.md
R82 to R95; 20_memory.md R51). -/

namespace Sys2Proof

/-- `be16(h, l) = {h, l}` (R11). -/
def be16 (h l : Byte) : Word := h ++ l

/-- `lo(v) = v[7:0]` (R11). -/
def lo (v : Word) : Byte := v.extractLsb' 0 8

/-- `hi(v) = v[15:8]` (R11). -/
def hi (v : Word) : Byte := v.extractLsb' 8 8

/-- `f[k]`, the `k`-th byte of a byte sequence; used only below the sequence's length. -/
def byteAt (f : List Byte) (k : Nat) : Byte := f.getD k 0

/-- The 8 bytes of a request frame in wire order (R82): start address and count big-endian (R85), checksum low
byte first (R86). -/
def requestBytes (cmd : Byte) (start count checksum : Word) : List Byte :=
  [deviceId, cmd, hi start, lo start, hi count, lo count, lo checksum, hi checksum]

/-- `startAddress = be16(f[2], f[3])` (R85). -/
def startOf (f : List Byte) : Word := be16 (byteAt f 2) (byteAt f 3)

/-- `count = be16(f[4], f[5])` (R85). -/
def countOf (f : List Byte) : Word := be16 (byteAt f 4) (byteAt f 5)

/-- `checksum = be16(f[7], f[6])` (R86). -/
def checksumOf (f : List Byte) : Word := be16 (byteAt f 7) (byteAt f 6)

/-- The 8 bytes of a frame read as a 64-bit number, byte 0 most significant (R91). -/
def frameWordBytes (w : BitVec 64) : List Byte :=
  [w.extractLsb' 56 8, w.extractLsb' 48 8, w.extractLsb' 40 8, w.extractLsb' 32 8,
   w.extractLsb' 24 8, w.extractLsb' 16 8, w.extractLsb' 8 8, w.extractLsb' 0 8]

/-- The instruction a full candidate's 8 bytes are (R84, R90): the address byte first, then the command byte. -/
def decodeFrame (f : List Byte) : Except Reject Instr :=
  if byteAt f 0 ≠ deviceId then .error .foreignDevice
  else if byteAt f 1 = cmdRead then .ok (.read (startOf f) (countOf f) (checksumOf f))
  else if byteAt f 1 = cmdWrite then .ok (.write (startOf f) (countOf f) (checksumOf f))
  else .error (.unrecognizedCommand (byteAt f 1))

/-- The header of a response (R83): `[01 03 n]`. -/
def decodeHeader (h : BitVec 24) : Except Reject Instr :=
  if h.extractLsb' 8 16 = be16 deviceId cmdRead then .ok (.response (h.extractLsb' 0 8))
  else .error .notResponseHeader

/-- `CTLPORT` (R93): `1x` is `RESET`, `01` is `POLL_START`, `00` is none. -/
def decodeCtl (v : BitVec 2) : Except Reject Instr :=
  if v.getLsbD 1 then .ok .reset
  else if v.getLsbD 0 then .ok .pollStart
  else .error .noOperation

/-- `RXPORT` (R93). The vector `11dddddddd` selects `RX_PUSH d` first; what it still holds then is `rxRest`. -/
def decodeRx (v : BitVec 10) : Except Reject Instr :=
  if v.getLsbD 8 then .ok (.rxPush (v.extractLsb' 0 8))
  else if v.getLsbD 9 then .ok .rxFault
  else .error .noOperation

/-- What an `RXPORT` vector still selects once its first operation is done: `RX_FAULT` after the push of
`11dddddddd` (R93, R63 case e), else nothing. -/
def rxRest (v : BitVec 10) : Option (BitVec 10) :=
  if v.getLsbD 8 && v.getLsbD 9 then some (0b10#2 ++ v.extractLsb' 0 8) else none

/-- `FSM` (R94): `SCAN_STEP` at `100` or `101`, `RESPOND` at `010`; nothing to do at `000` and `001`. -/
def decodeFsm (v : BitVec 3) : Except Reject Instr :=
  if v = 0b100#3 ∨ v = 0b101#3 then .ok .scanStep
  else if v = 0b010#3 then .ok .respond
  else if v = 0b000#3 ∨ v = 0b001#3 then .error .noOperation
  else .error .unreachableFsm

/-- `CRCPORT` (R95): `1xxxxxxxxx` is `CRC_INIT_OP`, which wins over `crc_en` (R113). -/
def decodeCrc (v : BitVec 10) : Except Reject Instr :=
  if v.getLsbD 9 then .ok .crcInitOp
  else if v.getLsbD 8 then .ok (.crcByte (v.extractLsb' 0 8))
  else .error .noOperation

/-- The instruction a word selects, total on every word of every format. -/
def decode : PortWord → Except Reject Instr
  | .req w => decodeFrame (frameWordBytes w)
  | .rsp h => decodeHeader h
  | .ctl v => decodeCtl v
  | .rx v => decodeRx v
  | .fsm v => decodeFsm v
  | .crc v => decodeCrc v

/-- The word of an instruction: frames by R82 and R91, the header by R83, port patterns by R93 to R95 with every
ignored bit 0. -/
def encode : Instr → PortWord
  | .read start count checksum =>
    .req (deviceId ++ cmdRead ++ start ++ count ++ lo checksum ++ hi checksum)
  | .write start count checksum =>
    .req (deviceId ++ cmdWrite ++ start ++ count ++ lo checksum ++ hi checksum)
  | .response n => .rsp (deviceId ++ cmdRead ++ n)
  | .reset => .ctl 0b10#2
  | .pollStart => .ctl 0b01#2
  | .rxPush d => .rx (0b01#2 ++ d)
  | .rxFault => .rx 0b1000000000#10
  | .scanStep => .fsm 0b100#3
  | .respond => .fsm 0b010#3
  | .crcInitOp => .crc 0b1000000000#10
  | .crcByte d => .crc (0b01#2 ++ d)

/-- The port a bare table word is on. 64 bits are a request frame, 24 a response header, 2 and 3 the control port
and the FSM vector. The table's 2- and 3-bit patterns share a byte, and its two 10-bit ports share 16 bits: there
the word is given to the row with fewest ignored bits that it fits, then to the earlier row (log 14). -/
def tableWord (nbits w : Nat) : Option PortWord :=
  if nbits = 64 then some (.req (BitVec.ofNat 64 w))
  else if nbits = 24 then some (.rsp (BitVec.ofNat 24 w))
  else if nbits = 2 then some (.ctl (BitVec.ofNat 2 w))
  else if nbits = 3 then some (.fsm (BitVec.ofNat 3 w))
  else if nbits = 8 then
    if w = 0b010 ∨ w = 0b100 ∨ w = 0b101 then some (.fsm (BitVec.ofNat 3 w))
    else if w < 4 then some (.ctl (BitVec.ofNat 2 w))
    else none
  else if nbits = 10 ∨ nbits = 16 then
    if w < 0x300 then some (.rx (BitVec.ofNat 10 w))
    else if w < 0x400 then some (.crc (BitVec.ofNat 10 w))
    else none
  else none

/-- The instruction the decoder reads from a word of opcode_table.json. -/
def decodeTableWord (nbits w : Nat) : Option Instr :=
  match tableWord nbits w with
  | some p =>
    match decode p with
    | .ok i => some i
    | .error _ => none
  | none => none

end Sys2Proof
end

