-- ==== Sys2Proof/Machine/State.lean ====
section
/-! DEFINITION. The state of the block (10_state.md R20 to R35), the reasons a step can stop, and the state after
reset (R32, R250). -/

namespace Sys2Proof.Machine

open Sys2Proof

/-- The scanner's state `st` (10_state.md R26). The unused value 3 cannot be written down (R99, U5). -/
inductive ScanState where
  /-- `IDLE_SCAN`, "looking for device id". -/
  | idleScan
  /-- `HAVE_CANDIDATE`, "device id found, awaiting enough bytes". -/
  | haveCandidate
  /-- `RESOLVED`, "terminal per cycle". -/
  | resolved
deriving DecidableEq, Repr

/-- The event labels of R220, a modelling device of the spec's own: `raise` appends one to the trace and has no
other effect. -/
inductive Event where
  /-- The dropped byte (R131, R221). -/
  | bufferOverflow (b : Byte)
  /-- R133, R222. -/
  | lineFault
  /-- R151. -/
  | errorReset
  /-- The candidate's index (R158, R223). -/
  | checksumMismatch (p : Nat)
  /-- The candidate's index and its command byte (R159, R225). -/
  | unrecognizedCommand (p : Nat) (c : Byte)
  /-- The candidate's index and the new `wait` (R157). -/
  | incomplete (p w : Nat)
  /-- The candidate's index (R157, R224). -/
  | stalledPartialFrame (p : Nat)
  /-- The buffer length discarded (R161). -/
  | flush (l : Nat)
  /-- The frame's index (R160). -/
  | frameValid (p : Nat)
  /-- Start and count (R200). -/
  | responseSent (start count : Word)
  /-- Start and count (R200, R227). -/
  | requestOutOfRange (start count : Word)
  /-- R152. -/
  | shortBuffer
deriving DecidableEq, Repr

/-- The output event stream (R35, R96, R234). -/
inductive Output where
  /-- `TX(s)`: one whole `transmit(bytes, length)` call. -/
  | tx (s : List Byte)
  /-- A response whose hand-over `RESET` cut short: only this much of it had left, possibly nothing and possibly
  all (R250, U8; log 10). -/
  | txCut (s : List Byte)
deriving DecidableEq, Repr

/-- The port vectors of one clock cycle (R93, R95), and whether the scanner's own step falls in it (R94, R262
leave that open). -/
structure Cycle where
  /-- `CTLPORT {rst, poll}`. -/
  ctl  : BitVec 2
  /-- `RXPORT {rx_fault, rx_valid, rx_data[7:0]}`. -/
  rx   : BitVec 10
  /-- `CRCPORT {crc_init, crc_en, crc_din[7:0]}`. -/
  crc  : BitVec 10
  /-- Whether an enabled `SCAN_STEP` or `RESPOND` happens in this cycle. -/
  scan : Bool
deriving DecidableEq, Repr

/-- One entry of the environment's schedule (log 3): a vector on one port, a turn of the scanner, or a whole clock
cycle (R63). -/
inductive Input where
  /-- A vector on `RXPORT`. -/
  | rx (v : BitVec 10)
  /-- A vector on `CTLPORT`. -/
  | ctl (v : BitVec 2)
  /-- A vector on `CRCPORT`. -/
  | crc (v : BitVec 10)
  /-- The scanner's turn: the operation its `FSM` vector selects, if any (R94). -/
  | scanner
  /-- One clock cycle on all ports at once, ordered by R63. -/
  | cycle (c : Cycle)
deriving DecidableEq, Repr

/-- Why a step stops. All are safe: the model stops where no rule of the spec goes on, and none can be reached
from a state that meets the invariant (log 24). -/
inductive Fault where
  /-- Raised by `MemRead(a, n)` with `a + n > len` (R55): a read at or above the committed length. Safe. -/
  | readBeyondCommitted
  /-- Raised by a read of a committed index whose cell holds no value (U2). Safe. -/
  | cellWithoutValue
  /-- Raised by a read of a register index that the table does not have (R57). Safe. -/
  | registerBeyondTable
  /-- Raised by a response that does not fit the staging buffer (R29, R50): cells at or above `T` do not exist.
  Safe. -/
  | stagingOverflow
deriving DecidableEq, Repr

/-- Why the model gives no meaning. -/
inductive Refusal where
  /-- Raised by exec for an instruction that has no meaning yet. Safe. -/
  | notModelled (mnemonic : String)
  /-- Raised by step when the parameters break the constraints of R6: "the configuration is ill-formed; the
  model's well-formedness check rejects it" (U7). Safe. -/
  | illFormedConfig
  /-- Raised by `RESPOND` under `BOUNDS_POLICY = REFUSE` for a request outside the table: "the model refuses the
  run at that `RESPOND`" (U1). Safe. -/
  | outOfRangeRequest
deriving DecidableEq, Repr

/-- Everything the spec gives the block (R32), its configuration (R6), its outputs (R35) and event trace (R220),
and the environment's schedule (log 3). Counters and indices are natural numbers: "every comparison and every
addition in the rules is on unbounded naturals" (R7). -/
structure State where
  /-- The parameters; nothing changes them (R30, R252; log 1). -/
  cfg        : Config
  /-- `regs`, the register table, entry 0 first (R20). -/
  regs       : List Word
  /-- `buf`, the cells of the intake buffer that hold a value, by index (R21, R34; log 8). -/
  buf        : List Host.Cell
  /-- `len`, the number of committed bytes (R22). -/
  len        : Nat
  /-- `cursor`, the scan cursor (R23). -/
  cursor     : Nat
  /-- `wait`, the wait counter (R24). -/
  wait       : Nat
  /-- `err`, the error flag (R25). -/
  err        : Bool
  /-- `st`, the scanner's state (R26). -/
  st         : ScanState
  /-- `pass_active` (R27). -/
  passActive : Bool
  /-- `crc`, the working register of the checksum engine (R28). -/
  crc        : Word
  /-- `txbuf`, the cells of the transmit staging buffer that hold a value, by index (R29; log 9). -/
  txbuf      : List Host.Cell
  /-- The output event stream, oldest first (R35). -/
  outputs    : List Output
  /-- The event trace, oldest first (R220). -/
  events     : List Event
  /-- The environment's schedule still to come, next entry first (log 3). -/
  inputs     : List Input
  /-- How many free values have been drawn; the model's own (log 6). -/
  draws      : Nat
deriving DecidableEq, Repr

/-- The block right after reset under a given configuration: R32's column "after `RESET`"; no cell of `buf` or
`txbuf` holds a value; `crc` is the named value 0 (log 5); no input is placed (log 17). -/
def State.resetWith (c : Config) : State :=
  { cfg := c, regs := c.regInit, buf := [], len := 0, cursor := 0, wait := 0, err := false,
    st := .idleScan, passActive := false, crc := 0, txbuf := [], outputs := [], events := [],
    inputs := [], draws := 0 }

/-- The block right after reset, in the reference configuration (log 1). -/
def State.reset : State := State.resetWith Config.reference

end Sys2Proof.Machine
end

