-- ==== Sys2Proof/Machine/Checksum.lean ====
section
/-! DEFINITION. The functions of the Checksum Engine (40_crc_engine.md R110 to R112), in their bit-serial,
normative form. -/

namespace Sys2Proof.Machine

open Sys2Proof

/-- `crc_bit(c)` (R111): shift right by one, XOR the polynomial in when a 1 was shifted out. -/
def crcBit (c : Word) : Word :=
  if c.getLsbD 0 then (c >>> 1) ^^^ crcPoly else c >>> 1

/-- `crc_byte(c, b)` (R112): XOR the byte into the low half, then eight bit steps. -/
def crcByte (c : Word) (b : Byte) : Word :=
  crcBit (crcBit (crcBit (crcBit (crcBit (crcBit (crcBit (crcBit (c ^^^ b.setWidth 16))))))))

/-- `crc16(s)` (R110, R112): the left fold of `crc_byte` from 0xFFFF, first byte first. -/
def crc16 (s : List Byte) : Word := s.foldl crcByte crcInit

/-- `checksumBytesOf(v) = [lo(v) hi(v)]` (R116): low byte first on the wire (R86, R89). -/
def checksumBytes (v : Word) : List Byte := [lo v, hi v]

end Sys2Proof.Machine
end

