-- ==== Sys2Proof/Machine/Flags.lean ====
section
/-! DEFINITION. The conditions the operations test: checksum verification (43_checksum_verify.md R190), the bounds
check (44_response_builder.md R203), the enabling conditions (30_encoding.md R80), quiescence (70_reset_and_hazards.md
R254). -/

namespace Sys2Proof.Machine

open Sys2Proof

/-- `verify(f)` (R190): the CRC of the first six bytes against bytes 6 (low) and 7 (high). -/
def verify (f : List Byte) : Bool :=
  let v := crc16 (f.take 6)
  lo v == byteAt f 6 && hi v == byteAt f 7

/-- "in range exactly when `zext_17(start) + zext_17(count) <= N`" (R203), the sum without wrap (R92). -/
def inRange (c : Config) (start count : Word) : Bool :=
  decide (start.toNat + count.toNat ≤ c.tableSize)

/-- `SCAN_STEP` is enabled "exactly when `pass_active = 1`" (R27, R80). -/
def State.scanEnabled (s : State) : Bool := s.passActive

/-- `RESPOND` is enabled "exactly when `st = RESOLVED`" (R26, R80). -/
def State.respondEnabled (s : State) : Bool := s.st == .resolved

/-- `POLL_START` is enabled when `pass_active = 0` and `st != RESOLVED` (R80, R150); the state is then quiescent
(R254). -/
def State.quiescent (s : State) : Bool := !s.passActive && !(s.st == .resolved)

/-- The 2-bit code of `st` (R26): `IDLE_SCAN = 0`, `HAVE_CANDIDATE = 1`, `RESOLVED = 2`. -/
def ScanState.code : ScanState → BitVec 2
  | .idleScan => 0
  | .haveCandidate => 1
  | .resolved => 2

/-- The internal vector `FSM {pass_active, st[1:0]}` (R94). -/
def State.fsmVector (s : State) : BitVec 3 := BitVec.ofBool s.passActive ++ s.st.code

end Sys2Proof.Machine
end

