-- ==== Sys2Proof/Machine/Operands.lean ====
section
/-! DEFINITION. Reading and writing the block's three storage arrays (20_memory.md R50 to R57): byte cells by index,
the committed bytes of the intake buffer, the frame at the cursor, the register table. -/

namespace Sys2Proof.Machine

open Sys2Proof

/-- The byte a cell holds; a cell that is not listed holds none (U2, U4). -/
def Memory.read : List Host.Cell → Nat → Option Byte
  | [], _ => none
  | (x, b) :: m, a => if a = x then some b else Memory.read m a

/-- Write one cell, keeping the indices strictly rising. -/
def Memory.write : List Host.Cell → Nat → Byte → List Host.Cell
  | [], a, v => [(a, v)]
  | (x, b) :: m, a, v =>
    if a < x then (a, v) :: (x, b) :: m
    else if a = x then (a, v) :: m
    else (x, b) :: Memory.write m a v

/-- Write a byte sequence to rising indices. -/
def Memory.writeAll : List Host.Cell → Nat → List Byte → List Host.Cell
  | m, _, [] => m
  | m, a, v :: vs => Memory.writeAll (Memory.write m a v) (a + 1) vs

/-- The canonical form: indices strictly rising, so no index twice. A listed cell always differs from an unlisted
one, which holds no value. -/
abbrev Memory.wf (m : List Host.Cell) : Prop := m.Pairwise (fun p q => p.1 < q.1)

/-- The `n` cells from index `a` on, each of which must hold a value (U2). -/
def readCells (m : List Host.Cell) : Nat → Nat → Except Fault (List Byte)
  | _, 0 => .ok []
  | a, n + 1 =>
    match Memory.read m a with
    | none => .error .cellWithoutValue
    | some b =>
      match readCells m (a + 1) n with
      | .error e => .error e
      | .ok bs => .ok (b :: bs)

/-- `length()` (R132): the number of committed bytes. -/
def State.length (s : State) : Nat := s.len

/-- `MemRead(a, n)` (R11, R55): legal only when `a + n <= len`. -/
def memRead (s : State) (a n : Nat) : Except Fault (List Byte) :=
  if a + n ≤ s.length then readCells s.buf a n else .error .readBeyondCommitted

/-- `BufRead(a)`, that is `MemRead(a, 1)` (R11). -/
def bufRead (s : State) (a : Nat) : Except Fault Byte :=
  match memRead s a 1 with
  | .ok bs => .ok (byteAt bs 0)
  | .error e => .error e

/-- `f = MemRead(cursor, 8)`, the request frame at the cursor (R30, R82, R153, R200). -/
def frameAtCursor (s : State) : Except Fault (List Byte) := memRead s s.cursor frameLen

/-- `x[i]` (R11): one entry of the register table. -/
def readReg (s : State) (i : Nat) : Except Fault Word :=
  match s.regs[i]? with
  | some v => .ok v
  | none => .error .registerBeyondTable

/-- Entries `start .. start + count - 1`, ascending (R88, R201). -/
def readRegs (s : State) : Nat → Nat → Except Fault (List Word)
  | _, 0 => .ok []
  | i, n + 1 =>
    match readReg s i with
    | .error e => .error e
    | .ok v =>
      match readRegs s (i + 1) n with
      | .error e => .error e
      | .ok vs => .ok (v :: vs)

end Sys2Proof.Machine
end

