-- ==== Sys2Proof/Machine/Ops.lean ====
section
/-! DEFINITION. The shared operations the meanings are made of: raising an event, the full reset (the block's only
"trap entry", 60_exceptions.md R229; there is no return, R230), the cursor's advance, the incomplete observation,
the frame cases of a full candidate, building and handing over a response. -/

namespace Sys2Proof.Machine

open Sys2Proof

/-- `raise e` (R11, R220): append the label to the trace; no other effect. -/
def State.raise (s : State) (e : Event) : State := { s with events := s.events ++ [e] }

/-- `emit` (R11, R234): append to the output stream. -/
def State.emit (s : State) (o : Output) : State := { s with outputs := s.outputs ++ [o] }

/-- The schedule moved on to what is still to come (log 3). -/
def State.withInputs (s : State) (r : List Input) : State := { s with inputs := r }

/-- `FULL_RESET()` (R162). The cells of `buf` keep their bytes; `regs`, `crc` and `txbuf` are untouched. -/
def State.fullReset (s : State) : State :=
  { s with len := 0, cursor := 0, wait := 0, err := false, st := .idleScan, passActive := false }

/-- The successful `append` (R130, R61): the byte lands at index `len` and `len` is incremented, together. -/
def State.appendByte (s : State) (b : Byte) : State :=
  { s with buf := Memory.write s.buf s.len b, len := s.len + 1 }

/-- `err <- 1` (R131, R133). -/
def State.setErr (s : State) : State := { s with err := true }

/-- `pass_active <- 1` (R150). -/
def State.beginPass (s : State) : State := { s with passActive := true }

/-- `cursor <- cursor + 1; wait <- 0; st <- IDLE_SCAN` (R154, R158, R159). -/
def State.advance (s : State) : State :=
  { s with cursor := s.cursor + 1, wait := 0, st := .idleScan }

/-- `st <- RESOLVED; pass_active <- 0` (R160). -/
def State.resolve (s : State) : State := { s with st := .resolved, passActive := false }

/-- `st <- HAVE_CANDIDATE; wait <- wait + 1; pass_active <- 0` (R157, second branch). -/
def State.keepWaiting (s : State) : State :=
  { s with st := .haveCandidate, wait := s.wait + 1, passActive := false }

/-- One more free value is drawn (log 6). -/
def State.draw (s : State) : State := { s with draws := s.draws + 1 }

/-- The engine has been used inside a scanner operation (R191, R204): what the working register holds between two
computations is any value (93_implementation_defined.md U3; log 7). -/
def State.useEngine (s : State) : State := ({ s with crc := Config.freeCrc s.draws } : State).draw

/-- The pseudocode of R157: the incomplete observation at the cursor; the `MAX_WAIT`-th consecutive one is the
stall timeout and resets. -/
def incompleteObservation (s : State) : State :=
  if s.wait + 1 = s.cfg.maxWait then (s.raise (.stalledPartialFrame s.cursor)).fullReset
  else s.keepWaiting.raise (.incomplete s.cursor (s.wait + 1))

/-- A full candidate with command `READ` (R153): the engine is used for it (R191); valid is R160, a false match
R158. -/
def readCandidate (f : List Byte) (s : State) : State :=
  let s' := s.useEngine
  if verify f then s'.resolve.raise (.frameValid s.cursor)
  else (s'.raise (.checksumMismatch s.cursor)).advance

/-- A full candidate with any other command byte (R159): the checksum is not looked at. -/
def skipCandidate (c : Byte) (s : State) : State :=
  (s.raise (.unrecognizedCommand s.cursor c)).advance

/-- The dispatch of a full candidate on its command byte (R153). -/
def fullCandidate (f : List Byte) (s : State) : State :=
  if byteAt f 1 = cmdRead then readCandidate f s else skipCandidate (byteAt f 1) s

/-- `byteCount = (2*count) mod 256` (R83, R87). -/
def byteCountOf (count : Word) : Byte := BitVec.ofNat 8 (2 * count.toNat)

/-- The register data of a response, each value high byte first (R88). -/
def dataBytes : List Word → List Byte
  | [] => []
  | v :: vs => hi v :: lo v :: dataBytes vs

/-- The response before its checksum (R201): the two bytes copied from the request, `byteCount`, the data. -/
def responseBody (f : List Byte) (vs : List Word) : List Byte :=
  byteAt f 0 :: byteAt f 1 :: byteCountOf (countOf f) :: dataBytes vs

/-- Append the checksum of the bytes so far, low byte first (R89, R201). -/
def withChecksum (r : List Byte) : List Byte := r ++ checksumBytes (crc16 r)

/-- The body of the response to the frame `f`: the register reads of R201. -/
def buildBody (s : State) (f : List Byte) : Except Fault (List Byte) :=
  match readRegs s (startOf f).toNat (countOf f).toNat with
  | .ok vs => .ok (responseBody f vs)
  | .error e => .error e

/-- `build(f)` (R201): the whole response. -/
def build (s : State) (f : List Byte) : Except Fault (List Byte) :=
  match buildBody s f with
  | .ok r => .ok (withChecksum r)
  | .error e => .error e

/-- Write the response to the staging buffer from index 0 on, the engine used for its checksum (R204), and hand it
to the transport as one `TX` event with its label (R29, R200, R234). -/
def handOver (f body : List Byte) (s : State) : State :=
  (((({ s with txbuf := Memory.writeAll s.txbuf 0 (withChecksum body) } : State).useEngine).emit
    (.tx (withChecksum body))).raise (.responseSent (startOf f) (countOf f)))

/-- The first branch of R200: build the response to `f` and hand it over; it must fit the staging buffer. -/
def sendResponse (f : List Byte) (s : State) : Except Fault State :=
  match buildBody s f with
  | .error e => .error e
  | .ok body =>
    if (withChecksum body).length ≤ s.cfg.txCap then .ok (handOver f body s)
    else .error .stagingOverflow

/-- The response `RESPOND` is about to hand over, where there is one: what `RESET` may cut short (U8). -/
def pendingResponse (s : State) : Option (List Byte) :=
  if s.respondEnabled then
    match frameAtCursor s with
    | .ok f =>
      if inRange s.cfg (startOf f) (countOf f) then
        match build s f with
        | .ok r => some r
        | .error _ => none
      else none
    | .error _ => none
  else none

/-- What had left of a pending response when `RESET` came: a free number of its bytes (U8; log 10). -/
def cutResponse (s : State) : State :=
  match pendingResponse s with
  | some r => s.emit (.txCut (r.take (Config.freeCut s.draws)))
  | none => s

/-- `buf`, `crc` and `txbuf` "become unspecified" (R250, R32): no cell holds a value (U2, U4; log 8, log 9) and
`crc` is a free value (U3; log 6). -/
def State.forget (s : State) : State :=
  ({ s with buf := [], txbuf := [], crc := Config.freeCrc s.draws } : State).draw

end Sys2Proof.Machine
end

