-- ==== Sys2Proof/Machine/Control.lean ====
section
/-! DEFINITION. The meaning of `RESET` (70_reset_and_hazards.md R250). -/

namespace Sys2Proof.Machine

open Sys2Proof

/-- `RESET` (R250): the writes of `FULL_RESET()`, with `buf`, `crc` and `txbuf` unspecified afterwards; a response
in progress is cut short (U8; log 10). Always enabled; no event. -/
def execReset (s : State) : Host.Outcome State Fault Refusal :=
  .next (cutResponse s).forget.fullReset

end Sys2Proof.Machine
end

