-- ==== Sys2Proof/Machine/CrcEngine.lean ====
section
/-! DEFINITION. The Checksum Engine as a unit of its own (40_crc_engine.md R113, R114). -/

namespace Sys2Proof.Machine

open Sys2Proof

/-- `CRC_INIT_OP` (R113). -/
def execCrcInitOp (s : State) : Host.Outcome State Fault Refusal :=
  .next { s with crc := crcInit }

/-- `CRC_BYTE b` (R114): continues from whatever `crc` holds. -/
def execCrcByte (b : Byte) (s : State) : Host.Outcome State Fault Refusal :=
  .next { s with crc := crcByte s.crc b }

end Sys2Proof.Machine
end

