-- ==== Sys2Proof/Machine/Intake.lean ====
section
/-! DEFINITION. The producer's operations (41_intake_fifo.md R130 to R136). Both are always enabled; `err` does not
gate them (R135, R136). -/

namespace Sys2Proof.Machine

open Sys2Proof

/-- `RX_PUSH b` (R130, R131): append below capacity; at capacity drop the byte and raise the error flag. -/
def execRxPush (b : Byte) (s : State) : Host.Outcome State Fault Refusal :=
  if s.len < s.cfg.cap then .next (s.appendByte b)
  else .next (s.setErr.raise (.bufferOverflow b))

/-- `RX_FAULT` (R133). -/
def execRxFault (s : State) : Host.Outcome State Fault Refusal :=
  .next (s.setErr.raise .lineFault)

end Sys2Proof.Machine
end

