-- ==== Sys2Proof/Machine/Responder.lean ====
section
/-! DEFINITION. The Response Builder's operations (44_response_builder.md R200 to R206). -/

namespace Sys2Proof.Machine

open Sys2Proof

/-- `RESPOND` (R200): bounds check, response or `BOUNDS_POLICY`, then the full reset. -/
def execRespond (s : State) : Host.Outcome State Fault Refusal :=
  if s.respondEnabled then
    match frameAtCursor s with
    | .error e => .fault e
    | .ok f =>
      if inRange s.cfg (startOf f) (countOf f) then
        match sendResponse f s with
        | .error e => .fault e
        | .ok s' => .next s'.fullReset
      else
        match s.cfg.bounds with
        | .drop => .next (s.raise (.requestOutOfRange (startOf f) (countOf f))).fullReset
        | .refuse => .refused .outOfRangeRequest
  else .next s

/-- `RESPONSE n` (R83, R201): the response frame with header `[01 03 n]` is built and handed to the transport, when
it is the response to the resolved frame at the cursor; no other response is ever produced (log 13). -/
def execResponse (n : Byte) (s : State) : Host.Outcome State Fault Refusal :=
  if s.respondEnabled then
    match frameAtCursor s with
    | .error e => .fault e
    | .ok f =>
      if inRange s.cfg (startOf f) (countOf f) && n == byteCountOf (countOf f) then
        match sendResponse f s with
        | .error e => .fault e
        | .ok s' => .next s'
      else .next s
  else .next s

end Sys2Proof.Machine
end

