-- ==== Sys2Proof/Machine/Scanner.lean ====
section
/-! DEFINITION. The Frame Scanner's operations (42_frame_scanner.md R150 to R161) and the request-frame commands
(30_encoding.md R90). An operation that is not enabled does not happen: the state is left as it is (log 11). -/

namespace Sys2Proof.Machine

open Sys2Proof

/-- `POLL_START` (R150 to R152): the error flag, then the short buffer, then the pass begins. A poll while the
operation is not enabled "is ignored and not remembered" (R93). -/
def execPollStart (s : State) : Host.Outcome State Fault Refusal :=
  if s.quiescent then
    if s.err then .next (s.raise .errorReset).fullReset
    else if s.length < frameLen then
      if s.cfg.shortWait then .next (incompleteObservation s)
      else .next (s.raise .shortBuffer)
    else .next s.beginPass
  else .next s

/-- `SCAN_STEP` (R153), with its six cases R154 and R157 to R161. -/
def execScanStep (s : State) : Host.Outcome State Fault Refusal :=
  if s.scanEnabled then
    if s.length ≤ s.cursor then .next (s.raise (.flush s.length)).fullReset
    else
      match bufRead s s.cursor with
      | .error e => .fault e
      | .ok b =>
        if b ≠ deviceId then .next s.advance
        else if s.length < s.cursor + frameLen then .next (incompleteObservation s)
        else
          match frameAtCursor s with
          | .error e => .fault e
          | .ok f => .next (fullCandidate f s)
  else .next s

/-- `READ` (R90): the frame is the full candidate at the cursor of a pass in progress; valid is R160, a false match
R158 (log 12). -/
def execRead (start count checksum : Word) (s : State) : Host.Outcome State Fault Refusal :=
  if s.scanEnabled then .next (readCandidate (requestBytes cmdRead start count checksum) s)
  else .next s

/-- `WRITE` (R90, R159): the frame is the full candidate at the cursor of a pass in progress; it is skipped, and none
of its operands is examined (log 12). -/
def execWrite (_start _count _checksum : Word) (s : State) : Host.Outcome State Fault Refusal :=
  if s.scanEnabled then .next (skipCandidate cmdWrite s)
  else .next s

end Sys2Proof.Machine
end

