-- ==== Sys2Proof/Machine/Dispatch.lean ====
section
/-! DEFINITION. One arm per constructor of Instr. -/

namespace Sys2Proof.Machine

open Sys2Proof

def exec (i : Instr) (s : State) : Host.Outcome State Fault Refusal :=
  match i with
  | .read start count checksum => Sys2Proof.Machine.execRead start count checksum s
  | .write start count checksum => Sys2Proof.Machine.execWrite start count checksum s
  | .response n => Sys2Proof.Machine.execResponse n s
  | .reset => Sys2Proof.Machine.execReset s
  | .pollStart => Sys2Proof.Machine.execPollStart s
  | .rxPush d => Sys2Proof.Machine.execRxPush d s
  | .rxFault => Sys2Proof.Machine.execRxFault s
  | .scanStep => Sys2Proof.Machine.execScanStep s
  | .respond => Sys2Proof.Machine.execRespond s
  | .crcInitOp => Sys2Proof.Machine.execCrcInitOp s
  | .crcByte d => Sys2Proof.Machine.execCrcByte d s

end Sys2Proof.Machine
end

