-- ==== Sys2Proof/Machine/Pass.lean ====
section
/-! DEFINITION. The whole pass as one function (42_frame_scanner.md R164) and the response layout written out
(30_encoding.md R83): no step calls these; they are what `poll` of R97 computes. -/

namespace Sys2Proof.Machine

open Sys2Proof

/-- A frame for this device, with the read command and a correct checksum (R160). -/
def validFrame (f : List Byte) : Bool :=
  byteAt f 0 == deviceId && byteAt f 1 == cmdRead && verify f

/-- Eight committed bytes from index `p` on are a valid frame (R167; R31 d). -/
def State.validAt (s : State) (p : Nat) : Bool :=
  match memRead s p frameLen with
  | .ok f => validFrame f
  | .error _ => false

/-- The response to the frame `f` by R83's layout, from the table's entries `start .. start + count - 1`. -/
def responseFor (regs : List Word) (f : List Byte) : List Byte :=
  withChecksum (responseBody f ((regs.drop (startOf f).toNat).take (countOf f).toNat))

/-- `RESPOND` inside the pass (R164, R200): one `TX` when in range, then the full reset. -/
def answerFrame (s : State) : State :=
  match frameAtCursor s with
  | .ok f =>
    if inRange s.cfg (startOf f) (countOf f) then (s.emit (.tx (responseFor s.regs f))).fullReset
    else s.fullReset
  | .error _ => s

/-- The loop of R164; `C + 1` rounds are enough (R165). -/
def passLoop : Nat → State → State
  | 0, s => s
  | n + 1, s =>
    if s.cursor = s.len then s.fullReset
    else if Memory.read s.buf s.cursor ≠ some deviceId then
      passLoop n { s with cursor := s.cursor + 1, wait := 0 }
    else if s.len < s.cursor + frameLen then
      if s.wait + 1 = s.cfg.maxWait then s.fullReset
      else { s with wait := s.wait + 1, st := .haveCandidate }
    else if s.validAt s.cursor then answerFrame s
    else passLoop n { s with cursor := s.cursor + 1, wait := 0 }

/-- `poll` with `SHORT_WAIT = 0` (R164). -/
def pollPass (s : State) : State :=
  if s.err then s.fullReset
  else if s.len < frameLen then s
  else passLoop (s.cfg.cap + 1) s

end Sys2Proof.Machine
end

