-- ==== Sys2Proof/Machine/Fetch.lean ====
section
/-! DEFINITION. Which operation happens next: the environment's schedule, the order of same-cycle operations
(20_memory.md R63), the scanner's own turn (30_encoding.md R94); and placing a table word so that the next step
runs it. -/

namespace Sys2Proof.Machine

open Sys2Proof

/-- Run the operation a word selects; a word that selects none leaves the state as it is (R93 to R95: "none"). -/
def runWord (w : PortWord) (s : State) : Host.Outcome State Fault Refusal :=
  match decode w with
  | .ok i => exec i s
  | .error _ => .next s

/-- The scanner's turn: the operation its own vector selects (R94). -/
def runScanner (s : State) : Host.Outcome State Fault Refusal := runWord (.fsm s.fsmVector) s

/-- Whether the vector selects `SCAN_STEP` or `RESPOND` (R94). -/
def scannerSelected (s : State) : Bool :=
  match decode (.fsm s.fsmVector) with
  | .ok _ => true
  | .error _ => false

/-- The operations of one clock cycle in the order of R63: `RESET` alone; else the consumer's step, then the push,
then the fault. A poll in a cycle that starts with a scanner operation enabled is ignored and not remembered (R93).
`CRCPORT` comes last (log 15). -/
def cycleInputs (c : Cycle) (s : State) : List Input :=
  if c.ctl.getLsbD 1 then [.ctl c.ctl]
  else
    (if scannerSelected s then (if c.scan then [.scanner] else []) else [.ctl c.ctl])
      ++ [.rx c.rx, .crc c.crc]

/-- The rest of an `RXPORT` vector stays first in the schedule (R63 case e). -/
def rxRestInputs (v : BitVec 10) : List Input :=
  match rxRest v with
  | some v' => [.rx v']
  | none => []

/-- One atomic operation (R60): the next entry of the schedule, or the scanner's turn when the schedule is empty, so
that "a pass that has started ends, and a resolved frame is answered" (R94; log 4). -/
def stepInput (s : State) : Host.Outcome State Fault Refusal :=
  match s.inputs with
  | [] => runScanner s
  | .scanner :: r => runScanner (s.withInputs r)
  | .rx v :: r => runWord (.rx v) (s.withInputs (rxRestInputs v ++ r))
  | .ctl v :: r => runWord (.ctl v) (s.withInputs r)
  | .crc v :: r => runWord (.crc v) (s.withInputs r)
  | .cycle c :: r => .next (s.withInputs (cycleInputs c s ++ r))

/-- Give the scanner the next turn: nothing to do when no input is placed (log 17). -/
def scannerNext (s : State) : State :=
  match s.inputs with
  | [] => s
  | r => s.withInputs (.scanner :: r)

/-- The value of `st` with a given code; 3 is no value of it (R26). -/
def ScanState.ofCode (v : BitVec 2) : Option ScanState :=
  if v = 0 then some .idleScan
  else if v = 1 then some .haveCandidate
  else if v = 2 then some .resolved
  else none

/-- Commit a frame's bytes at the cursor, in the given scanner state. -/
def placeFrame (f : List Byte) (c : ScanState) (pass : Bool) (s : State) : State :=
  scannerNext { s with
    buf := Memory.writeAll s.buf s.cursor f, len := s.cursor + f.length, st := c, passActive := pass }

/-- The request whose response has header `[01 03 n]`: `n/2` registers from address 0, correctly checksummed. -/
def requestFor (n : Byte) : List Byte :=
  let b := (requestBytes cmdRead 0 (BitVec.ofNat 16 (n.toNat / 2)) 0).take 6
  b ++ checksumBytes (crc16 b)

/-- Put the scanner into the state an `FSM` vector shows and give it the next turn. `RESOLVED` goes with a valid
frame at the cursor (R31 d): where the buffer holds none, the request for no register is committed there. -/
def placeFsm (v : BitVec 3) (s : State) : State :=
  match ScanState.ofCode (v.extractLsb' 0 2) with
  | some .resolved =>
    if s.validAt s.cursor then scannerNext { s with passActive := v.getLsbD 2, st := .resolved }
    else placeFrame (requestFor 0) .resolved (v.getLsbD 2) s
  | some c => scannerNext { s with passActive := v.getLsbD 2, st := c }
  | none => s

/-- Place a word so that the very next step runs the instruction it selects (log 17): a port vector first in the
schedule; a request frame as the full candidate at the cursor of a running pass; a response header as the resolved
request it answers. -/
def placeWord (w : PortWord) (s : State) : State :=
  match w with
  | .req f => placeFrame (frameWordBytes f) .idleScan true s
  | .rsp h => placeFrame (requestFor (h.extractLsb' 0 8)) .resolved false s
  | .ctl v => s.withInputs (.ctl v :: s.inputs)
  | .rx v => s.withInputs (.rx v :: s.inputs)
  | .fsm v => placeFsm v s
  | .crc v => s.withInputs (.crc v :: s.inputs)

/-- A word of opcode_table.json, placed; a word on no port of the table places nothing. -/
def placeTableWord (nbits w : Nat) (s : State) : State :=
  match tableWord nbits w with
  | some p => placeWord p s
  | none => s

end Sys2Proof.Machine
end

