-- ==== Sys2Proof/Machine/Step.lean ====
section
/-! DEFINITION. One step of the block, and placing a table word for it. -/

namespace Sys2Proof.Machine

open Sys2Proof

/-- One atomic operation of the block (20_memory.md R60) under a well-formed configuration; an ill-formed one is
refused (93_implementation_defined.md U7). -/
def step (s : State) : Host.Outcome State Fault Refusal :=
  if s.cfg.wf then stepInput s else .refused .illFormedConfig

/-- `s` with the instruction of a table word placed so that the very next step runs it (log 17). -/
def State.withFetchWord (s : State) (nbits w : Nat) : State := placeTableWord nbits w s

end Sys2Proof.Machine
end

