-- ==== Sys2Proof/Safety.lean ====
section
/-! DEFINITION. What statements about the block are made in: the agents (00_scope.md R8), the invariant of the
session (10_state.md R31), frames held in the buffer, agreement below the committed length. -/

namespace Sys2Proof

/-- The three agents of R8. -/
inductive Agent where
  | rx
  | scn
  | host
deriving DecidableEq, Repr

/-- Whose operation an instruction is (R8, R80); frames and responses are handled by the scanner. -/
def Instr.agent : Instr → Agent
  | .read _ _ _ => .scn
  | .write _ _ _ => .scn
  | .response _ => .scn
  | .reset => .host
  | .pollStart => .scn
  | .rxPush _ => .rx
  | .rxFault => .rx
  | .scanStep => .scn
  | .respond => .scn
  | .crcInitOp => .scn
  | .crcByte _ => .scn

namespace Machine

/-- The eight committed bytes from index `p` on are `f`. -/
abbrev State.holdsFrame (s : State) (p : Nat) (f : List Byte) : Prop :=
  f.length = frameLen ∧ p + frameLen ≤ s.len ∧
    ∀ k, k < frameLen → Memory.read s.buf (p + k) = some (byteAt f k)

/-- The invariants of R31 that one state can show (a to e), with the facts of R20, R21, R29 and R32 on the arrays:
the table is `REG_INIT`, every committed cell holds a value, and no cell exists outside `0..C-1` or `0..T-1`. -/
structure State.Inv (s : State) : Prop where
  cfg_wf    : s.cfg.wf = true
  table     : s.regs = s.cfg.regInit
  buf_wf    : Memory.wf s.buf
  buf_bound : ∀ p ∈ s.buf, p.1 < s.cfg.cap
  tx_wf     : Memory.wf s.txbuf
  tx_bound  : ∀ p ∈ s.txbuf, p.1 < s.cfg.txCap
  committed : ∀ i, i < s.len → (Memory.read s.buf i).isSome = true
  cursor_le : s.cursor ≤ s.len
  len_le    : s.len ≤ s.cfg.cap
  wait_lt   : s.wait < s.cfg.maxWait
  pass      : s.passActive = true → s.st ≠ .resolved ∧ frameLen ≤ s.len
  resolved  : s.st = .resolved → s.validAt s.cursor = true
  waiting   : s.st = .haveCandidate → s.passActive = false →
                1 ≤ s.wait ∧ (s.cfg.shortWait = false →
                  s.cursor < s.len ∧ Memory.read s.buf s.cursor = some deviceId)

/-- The part of the state a pass is about: the status outputs of R35, `pass_active`, and the `TX` stream. -/
structure State.SameSession (s t : State) : Prop where
  len     : s.len = t.len
  cursor  : s.cursor = t.cursor
  wait    : s.wait = t.wait
  err     : s.err = t.err
  st      : s.st = t.st
  pass    : s.passActive = t.passActive
  outputs : s.outputs = t.outputs

/-- Two buffers hold the same bytes below `n`. -/
abbrev agreeBelow (m m' : List Host.Cell) (n : Nat) : Prop :=
  ∀ i, i < n → Memory.read m i = Memory.read m' i

/-- One `RX_PUSH` vector for each byte (R97: `push [XX YY ...]`). -/
def pushInputs (bs : List Byte) : List Input := bs.map fun b => .rx (0b01#2 ++ b)

/-- `n` polls, each with one scanner turn: `n` observations of a waiting candidate (R156, R157). -/
def observeInputs (n : Nat) : List Input := (List.replicate n [.ctl 0b01#2, .scanner]).flatten

/-- The scanner turns in a schedule. -/
def scannerTurns (l : List Input) : Nat := l.countP (fun x => x == .scanner)

/-- A producer vector or a scanner turn: what can come while a pass runs and no one polls or resets. -/
def Input.duringPass : Input → Bool
  | .rx _ => true
  | .scanner => true
  | .ctl _ => false
  | .crc _ => false
  | .cycle _ => false

end Machine

end Sys2Proof
end

