-- ==== Sys2Proof/Certificates/Slice0/Obligations.lean ====
section
/-! DEFINITION. The statements for the provers. -/

open Sys2Proof Sys2Proof.Machine

/-! ### Encoding -/

/-- Decoding the encoding of any instruction gives it back, with every operand at every value (R82 to R95). -/
def Obligations.EncodeThenDecodeReturnsInstr : Prop :=
  ∀ i : Instr, decode (encode i) = .ok i

/-- A frame or header word that decodes has one meaning: encoding it again gives the word (R83, R91). -/
def Obligations.FrameWordsHaveOneMeaning : Prop :=
  (∀ (w : BitVec 64) (i : Instr), decode (.req w) = .ok i → encode i = .req w) ∧
  (∀ (h : BitVec 24) (i : Instr), decode (.rsp h) = .ok i → encode i = .rsp h)

/-- Words written out from the spec's encodings: the request of S1 as R91's number, a write, a response header,
and a pattern of each port. -/
def Obligations.DecodeReadsSpecWords : Prop :=
  decode (.req 0x010300020003A40B#64) = .ok (.read 0x0002 0x0003 0x0BA4) ∧
  decode (.req 0x01040002000311CB#64) = .ok (.write 0x0002 0x0003 0xCB11) ∧
  decode (.rsp 0x010306#24) = .ok (.response 0x06) ∧
  decode (.ctl 0b11#2) = .ok .reset ∧
  decode (.ctl 0b01#2) = .ok .pollStart ∧
  decode (.rx 0b0101011010#10) = .ok (.rxPush 0x5A) ∧
  decode (.rx 0b1001011010#10) = .ok .rxFault ∧
  decode (.fsm 0b101#3) = .ok .scanStep ∧
  decode (.fsm 0b010#3) = .ok .respond ∧
  decode (.crc 0b1101011010#10) = .ok .crcInitOp ∧
  decode (.crc 0b0101011010#10) = .ok (.crcByte 0x5A)

/-- The port patterns of R93 and R95 for every data byte, and what is left of `11dddddddd` after its push. -/
def Obligations.PortPatternsSelectOperations : Prop :=
  ∀ d : Byte,
    decode (.rx (0b00#2 ++ d)) = .error .noOperation ∧
    decode (.rx (0b01#2 ++ d)) = .ok (.rxPush d) ∧ rxRest (0b01#2 ++ d) = none ∧
    decode (.rx (0b10#2 ++ d)) = .ok .rxFault ∧ rxRest (0b10#2 ++ d) = none ∧
    decode (.rx (0b11#2 ++ d)) = .ok (.rxPush d) ∧ rxRest (0b11#2 ++ d) = some (0b10#2 ++ d) ∧
    decode (.crc (0b00#2 ++ d)) = .error .noOperation ∧
    decode (.crc (0b01#2 ++ d)) = .ok (.crcByte d) ∧
    decode (.crc (0b10#2 ++ d)) = .ok .crcInitOp ∧
    decode (.crc (0b11#2 ++ d)) = .ok .crcInitOp

/-! ### The step -/

/-- When the next entry of the schedule is a vector on a port and it decodes, the step runs that instruction; the
entry is taken off, and what an `RXPORT` vector still holds stays first (R93, R95). -/
def Obligations.StepRunsPortVector : Prop :=
  ∀ (s : State) (r : List Input) (i : Instr), s.cfg.wf = true →
    (∀ v, s.inputs = .ctl v :: r → decode (.ctl v) = .ok i → step s = exec i { s with inputs := r }) ∧
    (∀ v, s.inputs = .crc v :: r → decode (.crc v) = .ok i → step s = exec i { s with inputs := r }) ∧
    (∀ v, s.inputs = .rx v :: r → decode (.rx v) = .ok i → rxRest v = none →
      step s = exec i { s with inputs := r }) ∧
    (∀ v v', s.inputs = .rx v :: r → decode (.rx v) = .ok i → rxRest v = some v' →
      step s = exec i { s with inputs := .rx v' :: r })

/-- The scanner's turn, given by the schedule or taken when the schedule is empty, runs `SCAN_STEP` when
`pass_active = 1` and `st` is not `RESOLVED`, and `RESPOND` when `pass_active = 0` and `st = RESOLVED` (R94). -/
def Obligations.StepRunsScannerOperation : Prop :=
  ∀ (s : State) (r : List Input), s.cfg.wf = true →
    (s.passActive = true → s.st ≠ .resolved →
      (s.inputs = [] → step s = exec .scanStep s) ∧
      (s.inputs = .scanner :: r → step s = exec .scanStep { s with inputs := r })) ∧
    (s.passActive = false → s.st = .resolved →
      (s.inputs = [] → step s = exec .respond s) ∧
      (s.inputs = .scanner :: r → step s = exec .respond { s with inputs := r }))

/-- When the scanner's turn finds at the cursor of a running pass a full candidate whose bytes decode to a frame
command `i`, the step runs `i` (R153, R90; log 12). -/
def Obligations.StepRunsFrameAtCursor : Prop :=
  ∀ (s : State) (f : List Byte) (i : Instr), s.cfg.wf = true → s.inputs = [] → s.passActive = true →
    s.st ≠ .resolved → s.holdsFrame s.cursor f → decodeFrame f = .ok i → step s = exec i s

/-- When the scanner's turn finds a resolved in-range request of `count` registers, the step runs the response with
header `[01 03 n]`, `n` the request's `byteCount`, and then the full reset (R200, R201; log 13). -/
def Obligations.StepRunsResponseThenFullReset : Prop :=
  ∀ (s t : State) (f : List Byte), s.cfg.wf = true → s.inputs = [] → s.passActive = false →
    s.st = .resolved → s.holdsFrame s.cursor f → inRange s.cfg (startOf f) (countOf f) = true →
    exec (.response (byteCountOf (countOf f))) s = .next t → step s = .next t.fullReset

/-- A quiescent block with no input placed does nothing (R254); a configuration that breaks R6's constraints is
refused (U7). -/
def Obligations.IdleStepAndIllFormedConfig : Prop :=
  ∀ s : State,
    (s.cfg.wf = true → s.quiescent = true → s.inputs = [] → step s = .next s) ∧
    (s.cfg.wf = false → step s = .refused .illFormedConfig)

/-- `RESET` in a clock cycle: nothing else of that cycle happens (R63 a). -/
def Obligations.ResetWinsItsCycle : Prop :=
  ∀ (s : State) (c : Cycle) (r : List Input), s.cfg.wf = true → s.inputs = .cycle c :: r →
    c.ctl.getLsbD 1 = true → Host.Core.run Sys2Proof.core 2 s = exec .reset { s with inputs := r }

/-- A consumer step that performs the full reset, and a producer operation in the same cycle: the full reset is
first. A pushed byte lands at `buf[0]` and `len` becomes 1 (R63 b); a fault leaves `err` at 1 (R63 c). -/
def Obligations.FullResetBeforeProducerInCycle : Prop :=
  ∀ (s t : State) (c : Cycle) (r : List Input) (i : Instr), s.cfg.wf = true → s.inputs = .cycle c :: r →
    c.ctl.getLsbD 1 = false →
    (decode (.fsm s.fsmVector) = .ok i ∧ c.scan = true ∨
      (∀ j, decode (.fsm s.fsmVector) ≠ .ok j) ∧ decode (.ctl c.ctl) = .ok i) →
    exec i { s with inputs := [.rx c.rx, .crc c.crc] ++ r } = .next t →
    t.len = 0 → t.cursor = 0 → t.err = false →
    (∀ b : Byte, c.rx = 0b01#2 ++ b → ∃ u, Host.Core.run Sys2Proof.core 3 s = .next u ∧
      u.len = 1 ∧ Memory.read u.buf 0 = some b ∧ u.cursor = 0 ∧ u.err = false) ∧
    (∀ b : Byte, c.rx = 0b10#2 ++ b → ∃ u, Host.Core.run Sys2Proof.core 3 s = .next u ∧
      u.len = 0 ∧ u.cursor = 0 ∧ u.err = true)

/-- `RX_PUSH` and `RX_FAULT` in the same cycle, or as one vector: the push is first, then the fault (R63 e). -/
def Obligations.PushBeforeFaultInOneVector : Prop :=
  ∀ (s : State) (b : Byte) (r : List Input), s.cfg.wf = true → s.inputs = .rx (0b11#2 ++ b) :: r →
    s.len < s.cfg.cap →
    Host.Core.run Sys2Proof.core 2 s = .next { s with
      buf := Memory.write s.buf s.len b, len := s.len + 1, err := true,
      events := s.events ++ [.lineFault], inputs := r }

/-! ### Reset -/

/-- The state after reset (R32, R250): every element the spec gives a value holds it, whatever the configuration. -/
def Obligations.ResetStateHoldsSpecValues : Prop :=
  ∀ c : Config,
    (State.resetWith c).regs = c.regInit ∧ (State.resetWith c).len = 0 ∧ (State.resetWith c).cursor = 0 ∧
    (State.resetWith c).wait = 0 ∧ (State.resetWith c).err = false ∧ (State.resetWith c).st = .idleScan ∧
    (State.resetWith c).passActive = false

/-- `RESET` always completes, with R250's values; nothing else of the state changes but what R250 calls unspecified
(`buf`, `crc`, `txbuf`) and, where a response was pending, one record of a part of it on the output stream (U8). -/
def Obligations.ResetCompletes : Prop :=
  ∀ s : State, ∃ t, exec .reset s = .next t ∧
    t.len = 0 ∧ t.cursor = 0 ∧ t.wait = 0 ∧ t.err = false ∧ t.st = .idleScan ∧ t.passActive = false ∧
    t.cfg = s.cfg ∧ t.regs = s.regs ∧ t.inputs = s.inputs ∧ t.events = s.events ∧
    (t.outputs = s.outputs ∨
      s.st = .resolved ∧ ∃ r, pendingResponse s = some r ∧ ∃ k, t.outputs = s.outputs ++ [.txCut (r.take k)])

/-! ### The checksum engine -/

/-- The equations on bits of `crc_bit` (R111). -/
def Obligations.CrcBitEquations : Prop :=
  ∀ c : Word,
    (crcBit c).getLsbD 15 = c.getLsbD 0 ∧ (crcBit c).getLsbD 14 = c.getLsbD 15 ∧
    (crcBit c).getLsbD 13 = (c.getLsbD 14 ^^ c.getLsbD 0) ∧
    (∀ k, 1 ≤ k → k ≤ 12 → (crcBit c).getLsbD k = c.getLsbD (k + 1)) ∧
    (crcBit c).getLsbD 0 = (c.getLsbD 1 ^^ c.getLsbD 0)

/-- `CRC_INIT_OP` is every `CRCPORT` vector with `crc_init` set, whatever its other bits; it completes in every state:
`crc` is 0xFFFF, nothing else changes (R113). -/
def Obligations.CrcInitOpLoadsInitialValue : Prop :=
  (∀ v : BitVec 10, v.getLsbD 9 = true → decode (.crc v) = .ok .crcInitOp) ∧
  ∀ s : State, exec .crcInitOp s = .next { s with crc := 0xFFFF }

/-- `CRC_BYTE b` is the vector `01dddddddd`; it completes in every state: eight `crc_bit` steps after the XOR of the
byte, nothing else changes (R114, R112). -/
def Obligations.CrcByteRunsEightBitSteps : Prop :=
  ∀ (s : State) (b : Byte), decode (.crc (0b01#2 ++ b)) = .ok (.crcByte b) ∧
    exec (.crcByte b) s = .next { s with crc := Nat.repeat crcBit 8 (s.crc ^^^ b.setWidth 16) }

/-- The engine as a unit computes `crc16`: `CRC_INIT_OP` and then one `CRC_BYTE` a byte, from any state, leave
`crc16` of the bytes in `crc` and nothing else changed (R110, R112 to R114). -/
def Obligations.EngineOperationsComputeCrc16 : Prop :=
  ∀ (s : State) (bytes : List Byte), s.cfg.wf = true →
    s.inputs = .crc 0b1000000000#10 :: bytes.map (fun b => Input.crc (0b01#2 ++ b)) →
    Host.Core.run Sys2Proof.core (bytes.length + 1) s = .next { s with crc := crc16 bytes, inputs := [] }

/-- The one-step form of `crc_byte` (R115). -/
def Obligations.CrcByteTableForm : Prop :=
  ∀ (c : Word) (b : Byte), crcByte c b = (hi c).setWidth 16 ^^^ crcByte 0 (lo c ^^^ b)

/-- The residue (R117): the engine over a message followed by its own checksum, low byte first, ends at zero; and for
a frame this is the same as the comparison of R190. -/
def Obligations.CrcResidueIsZero : Prop :=
  (∀ s : List Byte, crc16 (s ++ [lo (crc16 s), hi (crc16 s)]) = 0) ∧
  ∀ f : List Byte, f.length = 8 → (verify f = true ↔ crc16 f = 0)

/-- The round trip (R192), and that any other checksum field fails (R118, R190). -/
def Obligations.VerifyAcceptsOnlyTheChecksum : Prop :=
  ∀ (m : List Byte) (a b : Byte), m.length = 6 →
    (verify (m ++ [a, b]) = true ↔ [a, b] = [lo (crc16 m), hi (crc16 m)])

/-! ### The intake buffer -/

/-- `RX_PUSH b`, the vector `01dddddddd`, below capacity (R130): the byte lands at index `len`, `len` is incremented, every other cell and
everything else is unchanged. -/
def Obligations.RxPushAppends : Prop :=
  ∀ (s : State) (b : Byte), decode (.rx (0b01#2 ++ b)) = .ok (.rxPush b) ∧
    (s.len < s.cfg.cap → ∃ t, exec (.rxPush b) s = .next t ∧
    Memory.read t.buf s.len = some b ∧ (∀ a, a ≠ s.len → Memory.read t.buf a = Memory.read s.buf a) ∧
    t = { s with buf := t.buf, len := s.len + 1 })

/-- `RX_PUSH b` at capacity (R131): the byte is dropped, `err` is 1, the event is raised, nothing else changes. -/
def Obligations.RxPushOverflows : Prop :=
  ∀ (s : State) (b : Byte), s.cfg.cap ≤ s.len →
    exec (.rxPush b) s = .next { s with err := true, events := s.events ++ [.bufferOverflow b] }

/-- `RX_FAULT`, the vector `10xxxxxxxx` (R133): `err` is 1, the event is raised, nothing else changes. -/
def Obligations.RxFaultSetsErr : Prop :=
  (∀ x : Byte, decode (.rx (0b10#2 ++ x)) = .ok .rxFault) ∧
  ∀ s : State, exec .rxFault s = .next { s with err := true, events := s.events ++ [.lineFault] }

/-- From an empty buffer the first `C` pushes succeed, each byte at its own index in order of arrival, and every
further push leaves the committed bytes as they are and `err` at 1 (R138, R137). -/
def Obligations.FirstCapPushesSucceed : Prop :=
  ∀ (s : State) (bs : List Byte), s.cfg.wf = true → s.len = 0 → s.err = false → s.inputs = pushInputs bs →
    ∃ t, Host.Core.run Sys2Proof.core bs.length s = .next t ∧
      t.len = min bs.length s.cfg.cap ∧ (t.err = true ↔ s.cfg.cap < bs.length) ∧
      (∀ i, i < t.len → Memory.read t.buf i = bs[i]?) ∧
      t.cursor = s.cursor ∧ t.wait = s.wait ∧ t.st = s.st ∧ t.passActive = s.passActive ∧ t.outputs = s.outputs

/-! ### Starting a pass -/

/-- `POLL_START` with the error flag set (R151). -/
def Obligations.PollWithErrorFlagResets : Prop :=
  ∀ s : State, s.passActive = false → s.st ≠ .resolved → s.err = true →
    exec .pollStart s = .next { s with
      len := 0, cursor := 0, wait := 0, err := false, st := .idleScan, passActive := false,
      events := s.events ++ [.errorReset] }

/-- `POLL_START` with fewer than 8 bytes (R152): with `SHORT_WAIT = 0` nothing but the label; with `SHORT_WAIT = 1`
the incomplete observation of R157. -/
def Obligations.PollWithShortBuffer : Prop :=
  ∀ s : State, s.passActive = false → s.st ≠ .resolved → s.err = false → s.len < 8 →
    (s.cfg.shortWait = false → exec .pollStart s = .next { s with events := s.events ++ [.shortBuffer] }) ∧
    (s.cfg.shortWait = true → s.wait + 1 ≠ s.cfg.maxWait →
      exec .pollStart s = .next { s with
        st := .haveCandidate, wait := s.wait + 1, passActive := false,
        events := s.events ++ [.incomplete s.cursor (s.wait + 1)] }) ∧
    (s.cfg.shortWait = true → s.wait + 1 = s.cfg.maxWait →
      exec .pollStart s = .next { s with
        len := 0, cursor := 0, wait := 0, err := false, st := .idleScan, passActive := false,
        events := s.events ++ [.stalledPartialFrame s.cursor] })

/-- `POLL_START` with 8 bytes or more (R150): the pass begins, nothing else changes. -/
def Obligations.PollBeginsPass : Prop :=
  ∀ s : State, s.passActive = false → s.st ≠ .resolved → s.err = false → 8 ≤ s.len →
    exec .pollStart s = .next { s with passActive := true }

/-- An operation that is not enabled changes nothing: a poll by R93's words ("ignored and not remembered"), the
scanner's other operations by the model's choice (log 11). -/
def Obligations.NotEnabledChangesNothing : Prop :=
  ∀ s : State,
    (s.passActive = true ∨ s.st = .resolved → exec .pollStart s = .next s) ∧
    (s.passActive = false → exec .scanStep s = .next s ∧
      ∀ a k c, exec (.read a k c) s = .next s ∧ exec (.write a k c) s = .next s) ∧
    (s.st ≠ .resolved → exec .respond s = .next s ∧ ∀ n, exec (.response n) s = .next s)

/-- With `SHORT_WAIT = 0` a short buffer never times out: any number of polls leaves everything but the event trace
(R152, R256). -/
def Obligations.ShortBufferNeverTimesOut : Prop :=
  ∀ (s : State) (m : Nat), s.cfg.wf = true → s.passActive = false → s.st ≠ .resolved → s.err = false →
    s.len < 8 → s.cfg.shortWait = false → s.inputs = List.replicate m (.ctl 0b01#2) →
    Host.Core.run Sys2Proof.core m s =
      .next { s with inputs := [], events := s.events ++ List.replicate m .shortBuffer }

/-! ### One step of the scan loop -/

/-- `SCAN_STEP` on a noise byte (R154). -/
def Obligations.ScanSkipsNoise : Prop :=
  ∀ (s : State) (b : Byte), s.passActive = true → s.cursor < s.len →
    Memory.read s.buf s.cursor = some b → b ≠ 0x01 →
    exec .scanStep s = .next { s with cursor := s.cursor + 1, wait := 0, st := .idleScan }

/-- `SCAN_STEP` on an incomplete candidate (R157): wait, or at the `MAX_WAIT`-th observation reset. -/
def Obligations.ScanWaitsOrStalls : Prop :=
  ∀ s : State, s.passActive = true → s.cursor < s.len → Memory.read s.buf s.cursor = some 0x01 →
    s.len < s.cursor + 8 →
    (s.wait + 1 ≠ s.cfg.maxWait → exec .scanStep s = .next { s with
      st := .haveCandidate, wait := s.wait + 1, passActive := false,
      events := s.events ++ [.incomplete s.cursor (s.wait + 1)] }) ∧
    (s.wait + 1 = s.cfg.maxWait → exec .scanStep s = .next { s with
      len := 0, cursor := 0, wait := 0, err := false, st := .idleScan, passActive := false,
      events := s.events ++ [.stalledPartialFrame s.cursor] })

/-- `SCAN_STEP` on a full candidate with the read command and a wrong checksum (R158); the engine's working register
is any value afterwards (U3), `draws` is the model's own count of free values. -/
def Obligations.ScanSkipsFalseMatch : Prop :=
  ∀ (s : State) (f : List Byte), s.passActive = true → s.holdsFrame s.cursor f →
    byteAt f 0 = 0x01 → byteAt f 1 = 0x03 → verify f = false →
    ∃ v d, exec .scanStep s = .next { s with
      crc := v, draws := d, cursor := s.cursor + 1, wait := 0, st := .idleScan,
      events := s.events ++ [.checksumMismatch s.cursor] }

/-- `SCAN_STEP` on a full candidate with any other command (R159): the checksum is not computed. -/
def Obligations.ScanSkipsUnrecognizedCommand : Prop :=
  ∀ (s : State) (f : List Byte), s.passActive = true → s.holdsFrame s.cursor f →
    byteAt f 0 = 0x01 → byteAt f 1 ≠ 0x03 →
    exec .scanStep s = .next { s with
      cursor := s.cursor + 1, wait := 0, st := .idleScan,
      events := s.events ++ [.unrecognizedCommand s.cursor (byteAt f 1)] }

/-- `SCAN_STEP` on a valid frame (R160): resolved, the pass ends; the engine's working register is any value
afterwards (U3). -/
def Obligations.ScanResolvesValidFrame : Prop :=
  ∀ (s : State) (f : List Byte), s.passActive = true → s.holdsFrame s.cursor f →
    byteAt f 0 = 0x01 → byteAt f 1 = 0x03 → verify f = true →
    ∃ v d, exec .scanStep s = .next { s with
      crc := v, draws := d, st := .resolved, passActive := false, events := s.events ++ [.frameValid s.cursor] }

/-- `SCAN_STEP` at the end of the buffer (R161): the flush. -/
def Obligations.ScanFlushesAtEnd : Prop :=
  ∀ s : State, s.passActive = true → s.len ≤ s.cursor →
    exec .scanStep s = .next { s with
      len := 0, cursor := 0, wait := 0, err := false, st := .idleScan, passActive := false,
      events := s.events ++ [.flush s.len] }

/-! ### The frame commands -/

/-- `READ` as the full candidate of a running pass (R90): verified, it resolves (R160); else it is a false match
(R158). The working register is any value afterwards (U3, log 7). -/
def Obligations.ReadCommandVerifiesChecksum : Prop :=
  ∀ (s : State) (a k c : Word), s.passActive = true →
    (crc16 [0x01, 0x03, hi a, lo a, hi k, lo k] = c → ∃ v d, exec (.read a k c) s = .next { s with
      crc := v, draws := d, st := .resolved, passActive := false, events := s.events ++ [.frameValid s.cursor] }) ∧
    (crc16 [0x01, 0x03, hi a, lo a, hi k, lo k] ≠ c → ∃ v d, exec (.read a k c) s = .next { s with
      crc := v, draws := d, cursor := s.cursor + 1, wait := 0, st := .idleScan,
      events := s.events ++ [.checksumMismatch s.cursor] })

/-- `WRITE` as the full candidate of a running pass (R90, R159): skipped, whatever its operands. -/
def Obligations.WriteCommandIsSkipped : Prop :=
  ∀ (s : State) (a k c : Word), s.passActive = true →
    exec (.write a k c) s = .next { s with
      cursor := s.cursor + 1, wait := 0, st := .idleScan,
      events := s.events ++ [.unrecognizedCommand s.cursor 0x04] }

/-! ### The response builder -/

/-- `RESPOND` in range (R200, R201): one `TX` with the response, staged in `txbuf` from index 0 on, then the full
reset; every other staging cell and everything else is unchanged (the engine's working register is any value, U3). -/
def Obligations.RespondSendsResponse : Prop :=
  ∀ (s : State) (f : List Byte), s.cfg.wf = true → s.regs = s.cfg.regInit → s.st = .resolved →
    s.holdsFrame s.cursor f → (startOf f).toNat + (countOf f).toNat ≤ s.cfg.tableSize →
    ∃ t, exec .respond s = .next t ∧
      (∀ k, k < (responseFor s.regs f).length → Memory.read t.txbuf k = (responseFor s.regs f)[k]?) ∧
      (∀ k, (responseFor s.regs f).length ≤ k → Memory.read t.txbuf k = Memory.read s.txbuf k) ∧
      t = { s with
        len := 0, cursor := 0, wait := 0, err := false, st := .idleScan, passActive := false,
        crc := t.crc, draws := t.draws, txbuf := t.txbuf, outputs := s.outputs ++ [.tx (responseFor s.regs f)],
        events := s.events ++ [.responseSent (startOf f) (countOf f)] }

/-- `RESPOND` out of range, the sum taken without wrap (R203, R227): under `DROP` no `TX` and the full reset; under
`REFUSE` the model refuses (U1). -/
def Obligations.RespondOutOfRange : Prop :=
  ∀ (s : State) (f : List Byte), s.st = .resolved → s.holdsFrame s.cursor f →
    s.cfg.tableSize < (startOf f).toNat + (countOf f).toNat →
    (s.cfg.bounds = .drop → exec .respond s = .next { s with
      len := 0, cursor := 0, wait := 0, err := false, st := .idleScan, passActive := false,
      events := s.events ++ [.requestOutOfRange (startOf f) (countOf f)] }) ∧
    (s.cfg.bounds = .refuse → exec .respond s = .refused .outOfRangeRequest)

/-- `RESPONSE n` for the resolved in-range request whose `byteCount` is `n` (R201): the response is staged and handed
over, everything else is unchanged (the engine's working register is any value, U3); for any other `n` nothing happens
(log 13). -/
def Obligations.ResponseIsBuiltAndHandedOver : Prop :=
  ∀ (s : State) (f : List Byte) (n : Byte), s.cfg.wf = true → s.regs = s.cfg.regInit → s.st = .resolved →
    s.holdsFrame s.cursor f → (startOf f).toNat + (countOf f).toNat ≤ s.cfg.tableSize →
    (n = byteCountOf (countOf f) → ∃ t, exec (.response n) s = .next t ∧
      (∀ k, k < (responseFor s.regs f).length → Memory.read t.txbuf k = (responseFor s.regs f)[k]?) ∧
      (∀ k, (responseFor s.regs f).length ≤ k → Memory.read t.txbuf k = Memory.read s.txbuf k) ∧
      t = { s with
        crc := t.crc, draws := t.draws, txbuf := t.txbuf, outputs := s.outputs ++ [.tx (responseFor s.regs f)],
        events := s.events ++ [.responseSent (startOf f) (countOf f)] }) ∧
    (n ≠ byteCountOf (countOf f) → exec (.response n) s = .next s)

/-- The response format (R83, R88, R89): what `build` answers for an in-range frame, byte by byte, `k` the count. -/
def Obligations.ResponseLayout : Prop :=
  ∀ (s : State) (f : List Byte), (startOf f).toNat + (countOf f).toNat ≤ s.regs.length →
    ∃ r, build s f = .ok r ∧ r.length = 5 + 2 * (countOf f).toNat ∧
      byteAt r 0 = byteAt f 0 ∧ byteAt r 1 = byteAt f 1 ∧
      (byteAt r 2).toNat = (2 * (countOf f).toNat) % 256 ∧
      (∀ i v, i < (countOf f).toNat → s.regs[(startOf f).toNat + i]? = some v →
        byteAt r (3 + 2 * i) = hi v ∧ byteAt r (4 + 2 * i) = lo v) ∧
      byteAt r (3 + 2 * (countOf f).toNat) = lo (crc16 (r.take (3 + 2 * (countOf f).toNat))) ∧
      byteAt r (4 + 2 * (countOf f).toNat) = hi (crc16 (r.take (3 + 2 * (countOf f).toNat)))

/-- In range, `byteCount` is exact, the response is 5 to `5 + 2*N` bytes and fits the staging buffer, and the whole
response checks to zero residue (R202, R208, R117). -/
def Obligations.ResponseFitsAndChecks : Prop :=
  ∀ (c : Config) (f : List Byte), c.wf = true → inRange c (startOf f) (countOf f) = true →
    (byteCountOf (countOf f)).toNat = 2 * (countOf f).toNat ∧
    (responseFor c.regInit f).length = 5 + 2 * (countOf f).toNat ∧
    (responseFor c.regInit f).length ≤ 5 + 2 * c.tableSize ∧
    (responseFor c.regInit f).length ≤ c.txCap ∧
    crc16 (responseFor c.regInit f) = 0

/-! ### Invariants and whole-machine rules -/

/-- The state after reset meets the invariant, under every well-formed configuration. -/
def Obligations.ResetMeetsInvariant : Prop :=
  ∀ c : Config, c.wf = true → (State.resetWith c).Inv

/-- Every step keeps the invariant (R31). -/
def Obligations.StepKeepsInvariant : Prop :=
  ∀ s t : State, s.Inv → step s = .next t → t.Inv

/-- Availability (R166) and the read bounds (R55, R57): from a state that meets the invariant no step faults; under
`BOUNDS_POLICY = DROP` every step answers a next state, so no state is stuck; and exactly one of `POLL_START`,
`SCAN_STEP` and `RESPOND` is enabled. -/
def Obligations.StepNeverFaultsOrSticks : Prop :=
  ∀ s : State, s.Inv → (∀ e, step s ≠ .fault e) ∧ (s.cfg.bounds = .drop → ∃ t, step s = .next t) ∧
    ((s.quiescent = true ∧ s.scanEnabled = false ∧ s.respondEnabled = false) ∨
     (s.quiescent = false ∧ s.scanEnabled = true ∧ s.respondEnabled = false) ∨
     (s.quiescent = false ∧ s.scanEnabled = false ∧ s.respondEnabled = true))

/-- Committed bytes do not change (R58): after any step the buffer is empty, or `len` has not shrunk and every byte
committed before reads as before. -/
def Obligations.CommittedBytesAreImmutable : Prop :=
  ∀ s t : State, step s = .next t →
    t.len = 0 ∨ (s.len ≤ t.len ∧ ∀ i, i < s.len → Memory.read t.buf i = Memory.read s.buf i)

/-- Nothing writes the register table or the parameters (R20, R207). -/
def Obligations.TableAndParametersAreConstant : Prop :=
  ∀ (i : Instr) (s t : State), (exec i s = .next t ∨ step s = .next t) → t.regs = s.regs ∧ t.cfg = s.cfg

/-- The ownership table (R33, R65): which agent's operations write which element, and how. -/
def Obligations.SingleWriterDiscipline : Prop :=
  ∀ (i : Instr) (s t : State), exec i s = .next t →
    (i.agent = .rx → t.cursor = s.cursor ∧ t.wait = s.wait ∧ t.st = s.st ∧ t.passActive = s.passActive ∧
      t.crc = s.crc ∧ t.txbuf = s.txbuf ∧ t.outputs = s.outputs ∧ (s.err = true → t.err = true) ∧
      (t.len = s.len ∨ t.len = s.len + 1) ∧
      (∀ a, a ≠ s.len → Memory.read t.buf a = Memory.read s.buf a)) ∧
    (i.agent = .scn → t.buf = s.buf ∧ (t.len = s.len ∨ t.len = 0) ∧ (s.err = false → t.err = false) ∧
      (t.cursor = s.cursor ∨ t.cursor = s.cursor + 1 ∨ t.cursor = 0)) ∧
    t.inputs = s.inputs

/-- What the scanner never does (R170): from a state that meets the invariant, a step that changes the output stream
adds the response to the frame at the cursor, which is for this device, is a read, verifies and is in range, or, at
`RESET`, a part of that response (U8). -/
def Obligations.OnlyValidReadsAreAnswered : Prop :=
  ∀ s t : State, s.Inv → step s = .next t → t.outputs = s.outputs ∨
    (s.st = .resolved ∧ ∃ f, s.holdsFrame s.cursor f ∧ byteAt f 0 = 0x01 ∧ byteAt f 1 = 0x03 ∧ verify f = true ∧
      (startOf f).toNat + (countOf f).toNat ≤ s.cfg.tableSize ∧
      (t.outputs = s.outputs ++ [.tx (responseFor s.regs f)] ∨
        ∃ k, t.outputs = s.outputs ++ [.txCut ((responseFor s.regs f).take k)]))

/-- Stale bytes are never observed (R34, R251): two states that differ only in buffer cells at or above `len` take
the same step, and go on differing only there. -/
def Obligations.StaleBytesAreNeverObserved : Prop :=
  ∀ (s t : State) (m : List Host.Cell), agreeBelow s.buf m s.len → step s = .next t →
    ∃ t', step { s with buf := m } = .next t' ∧ t' = { t with buf := t'.buf } ∧ agreeBelow t.buf t'.buf t.len

/-- Nothing but the engine's own byte operation reads `crc`, and nothing reads `txbuf` (R28, R29): two states that
differ only there do the same under every operation, and go on differing only there. -/
def Obligations.WorkingRegisterAndStagingAreHidden : Prop :=
  ∀ (i : Instr) (s t : State) (v : Word) (m : List Host.Cell), exec i s = .next t →
    ∃ t', exec i { s with crc := v, txbuf := m } = .next t' ∧ t' = { t with crc := t'.crc, txbuf := t'.txbuf }

/-- One step of a pass ends it or moves the cursor up by one (R165). -/
def Obligations.ScanStepEndsPassOrAdvances : Prop :=
  ∀ s : State, s.Inv → s.passActive = true → ∃ t, exec .scanStep s = .next t ∧
    (t.passActive = false ∨ t.passActive = true ∧ t.cursor = s.cursor + 1 ∧ t.len = s.len)

/-- Every pass reaches a quiescent state in at most `C + 2` scanner turns, whatever the producer does meanwhile
(R165, R254). -/
def Obligations.PassReachesQuiescence : Prop :=
  ∀ s : State, s.Inv → s.cfg.bounds = .drop → (∀ x ∈ s.inputs, x.duringPass = true) →
    s.cfg.cap + 2 ≤ scannerTurns s.inputs →
    ∃ k t, Host.Core.run Sys2Proof.core k s = .next t ∧ t.quiescent = true ∧
      scannerTurns s.inputs ≤ scannerTurns t.inputs + (s.cfg.cap + 2)

/-- A poll with no producer operation inside the pass computes the function of R164. -/
def Obligations.PollComputesWholePass : Prop :=
  ∀ s : State, s.Inv → s.cfg.bounds = .drop → s.cfg.shortWait = false → s.quiescent = true →
    s.inputs = [.ctl 0b01#2] →
    ∃ k t, k ≤ s.cfg.cap + 3 ∧ Host.Core.run Sys2Proof.core k s = .next t ∧ t.quiescent = true ∧ t.inputs = [] ∧
      t.SameSession (pollPass s)

/-- Framing recovery (R167): a pass finds the first valid frame at or after the cursor, whatever false matches, other
commands and noise come before it, and whatever the producer does meanwhile. -/
def Obligations.PassFindsFirstValidFrame : Prop :=
  ∀ (s : State) (p : Nat) (l : List Input), s.Inv → s.quiescent = true → s.err = false →
    s.inputs = .ctl 0b01#2 :: l → (∀ x ∈ l, x.duringPass = true) → p - s.cursor + 1 ≤ scannerTurns l →
    s.cursor ≤ p → s.validAt p = true → (∀ q, s.cursor ≤ q → q < p → s.validAt q = false) →
    ∃ k t, Host.Core.run Sys2Proof.core k s = .next t ∧
      t.st = .resolved ∧ t.cursor = p ∧ t.passActive = false ∧ s.len ≤ t.len ∧ t.outputs = s.outputs ∧
      scannerTurns l = scannerTurns t.inputs + (p - s.cursor + 1)

/-- The stall timeout (R169, R157): fewer than `MAX_WAIT` consecutive observations of an incomplete candidate keep the
session and count up; the `MAX_WAIT`-th resets it. -/
def Obligations.StallTimeoutAfterMaxWait : Prop :=
  ∀ (s : State) (m : Nat), s.Inv → s.quiescent = true → s.err = false → 8 ≤ s.len → s.wait = 0 →
    s.cursor < s.len → s.len < s.cursor + 8 → Memory.read s.buf s.cursor = some 0x01 →
    m ≤ s.cfg.maxWait → s.inputs = observeInputs m →
    ∃ t, Host.Core.run Sys2Proof.core (2 * m) s = .next t ∧ t.inputs = [] ∧ t.outputs = s.outputs ∧
      (m < s.cfg.maxWait → t.wait = m ∧ t.len = s.len ∧ t.cursor = s.cursor ∧ (0 < m → t.st = .haveCandidate)) ∧
      (m = s.cfg.maxWait → t.len = 0 ∧ t.cursor = 0 ∧ t.wait = 0 ∧ t.st = .idleScan)

/-- Late completion (R168): a candidate observed incomplete at most `MAX_WAIT - 1` times and then completed to a valid
frame resolves at its own position. -/
def Obligations.LateCompletionResolves : Prop :=
  ∀ (s : State) (m : Nat) (pre bs : List Byte), s.Inv → s.quiescent = true → s.err = false → 8 ≤ s.len →
    s.wait = 0 → s.cursor + pre.length = s.len → pre.length < 8 →
    readCells s.buf s.cursor pre.length = .ok pre → validFrame ((pre ++ bs).take 8) = true →
    8 ≤ (pre ++ bs).length → s.len + bs.length ≤ s.cfg.cap → 0 < pre.length → m < s.cfg.maxWait →
    s.inputs = observeInputs m ++ pushInputs bs ++ observeInputs 1 →
    ∃ t, Host.Core.run Sys2Proof.core (2 * m + bs.length + 2) s = .next t ∧
      t.st = .resolved ∧ t.cursor = s.cursor ∧ t.len = s.len + bs.length
end

