-- ==== Sys2Proof/Laws/Decode.lean ====
section
/-! SUPPORT. Byte order (20_memory.md R51): the halves of a 16-bit value and the value of two halves. -/

namespace Sys2Proof

@[simp] theorem lo_be16 (h l : Byte) : lo (be16 h l) = l :=
  (BitVec.extractLsb'_append_eq_of_add_le (by decide)).trans BitVec.extractLsb'_eq_self

@[simp] theorem hi_be16 (h l : Byte) : hi (be16 h l) = h :=
  (BitVec.extractLsb'_append_eq_of_le (by decide)).trans BitVec.extractLsb'_eq_self

@[simp] theorem be16_hi_lo (v : Word) : be16 (hi v) (lo v) = v := by
  unfold be16 hi lo
  rw [BitVec.extractLsb'_append_extractLsb'_eq_extractLsb' (by rfl)]
  exact BitVec.extractLsb'_eq_self

/-- Two 16-bit values with the same halves are the same. -/
theorem eq_of_lo_hi (v w : Word) (hl : lo v = lo w) (hh : hi v = hi w) : v = w := by
  rw [← be16_hi_lo v, ← be16_hi_lo w, hl, hh]

@[simp] theorem byteAt_cons_zero (b : Byte) (f : List Byte) : byteAt (b :: f) 0 = b := rfl

@[simp] theorem byteAt_cons_succ (b : Byte) (f : List Byte) (k : Nat) :
    byteAt (b :: f) (k + 1) = byteAt f k := rfl

/-- The fields of a request frame's bytes are the fields it was made of (R82, R85, R86). -/
@[simp] theorem startOf_requestBytes (cmd : Byte) (a k c : Word) : startOf (requestBytes cmd a k c) = a :=
  be16_hi_lo a

@[simp] theorem countOf_requestBytes (cmd : Byte) (a k c : Word) : countOf (requestBytes cmd a k c) = k :=
  be16_hi_lo k

@[simp] theorem checksumOf_requestBytes (cmd : Byte) (a k c : Word) :
    checksumOf (requestBytes cmd a k c) = c :=
  be16_hi_lo c

end Sys2Proof
end

