-- ==== Sys2Proof/Laws/Checksum.lean ====
section
/-! SUPPORT. The checksum functions: one lemma per definition, the fold, and the linearity of the bit step. -/

namespace Sys2Proof.Machine

open Sys2Proof

/-- The empty input returns the initial value (40_crc_engine.md R110). -/
@[simp] theorem crc16_nil : crc16 [] = crcInit := rfl

/-- One more byte is one more `crc_byte` (R112). -/
theorem crc16_append_byte (s : List Byte) (b : Byte) : crc16 (s ++ [b]) = crcByte (crc16 s) b := by
  simp [crc16, List.foldl_append]

/-- The bit step when a 0 is shifted out (R111). -/
theorem crcBit_of_low_zero (c : Word) (h : c.getLsbD 0 = false) : crcBit c = c >>> 1 := by
  simp only [crcBit, h]; rfl

/-- The bit step when a 1 is shifted out (R111). -/
theorem crcBit_of_low_one (c : Word) (h : c.getLsbD 0 = true) : crcBit c = (c >>> 1) ^^^ crcPoly := by
  simp only [crcBit, h]; rfl

/-- The bit step is linear over XOR (R115). -/
theorem crcBit_xor (x y : Word) : crcBit (x ^^^ y) = crcBit x ^^^ crcBit y := by
  have hs : (x ^^^ y) >>> 1 = (x >>> 1) ^^^ (y >>> 1) := BitVec.ushiftRight_xor_distrib ..
  have hb : (x ^^^ y).getLsbD 0 = (x.getLsbD 0 ^^ y.getLsbD 0) := BitVec.getLsbD_xor
  cases hx : x.getLsbD 0 <;> cases hy : y.getLsbD 0 <;> rw [hx, hy] at hb
  · rw [crcBit_of_low_zero _ hx, crcBit_of_low_zero _ hy, crcBit_of_low_zero _ hb, hs]
  · rw [crcBit_of_low_zero _ hx, crcBit_of_low_one _ hy, crcBit_of_low_one _ hb, hs, BitVec.xor_assoc]
  · rw [crcBit_of_low_one _ hx, crcBit_of_low_zero _ hy, crcBit_of_low_one _ hb, hs, BitVec.xor_assoc,
      BitVec.xor_comm (y >>> 1), BitVec.xor_assoc]
  · rw [crcBit_of_low_one _ hx, crcBit_of_low_one _ hy, crcBit_of_low_zero _ hb, hs]
    rw [BitVec.xor_assoc, ← BitVec.xor_assoc crcPoly, BitVec.xor_comm crcPoly, BitVec.xor_assoc (y >>> 1),
      BitVec.xor_self, BitVec.xor_zero]

/-- What `verify` says (43_checksum_verify.md R190). -/
theorem verify_iff (f : List Byte) :
    verify f = true ↔ lo (crc16 (f.take 6)) = byteAt f 6 ∧ hi (crc16 (f.take 6)) = byteAt f 7 := by
  simp [verify]

/-- What the bounds check says (44_response_builder.md R203). -/
theorem inRange_iff (c : Config) (start count : Word) :
    inRange c start count = true ↔ start.toNat + count.toNat ≤ c.tableSize := by
  simp [inRange]

/-- What quiescence says (70_reset_and_hazards.md R254). -/
theorem quiescent_iff (s : State) : s.quiescent = true ↔ s.passActive = false ∧ s.st ≠ .resolved := by
  simp [State.quiescent]

theorem scanEnabled_iff (s : State) : s.scanEnabled = true ↔ s.passActive = true := Iff.rfl

theorem respondEnabled_iff (s : State) : s.respondEnabled = true ↔ s.st = .resolved := by
  simp [State.respondEnabled]

end Sys2Proof.Machine
end

