-- ==== Sys2Proof/Laws/State.lean ====
section
/-! SUPPORT. One lemma per field per update of the state, so that no later proof unfolds a record update. -/

namespace Sys2Proof.Machine

open Sys2Proof

@[simp] theorem State.raise_cfg (s : State) (e : Event) : (s.raise e).cfg = s.cfg := rfl
@[simp] theorem State.raise_regs (s : State) (e : Event) : (s.raise e).regs = s.regs := rfl
@[simp] theorem State.raise_buf (s : State) (e : Event) : (s.raise e).buf = s.buf := rfl
@[simp] theorem State.raise_len (s : State) (e : Event) : (s.raise e).len = s.len := rfl
@[simp] theorem State.raise_cursor (s : State) (e : Event) : (s.raise e).cursor = s.cursor := rfl
@[simp] theorem State.raise_wait (s : State) (e : Event) : (s.raise e).wait = s.wait := rfl
@[simp] theorem State.raise_err (s : State) (e : Event) : (s.raise e).err = s.err := rfl
@[simp] theorem State.raise_st (s : State) (e : Event) : (s.raise e).st = s.st := rfl
@[simp] theorem State.raise_passActive (s : State) (e : Event) : (s.raise e).passActive = s.passActive := rfl
@[simp] theorem State.raise_crc (s : State) (e : Event) : (s.raise e).crc = s.crc := rfl
@[simp] theorem State.raise_txbuf (s : State) (e : Event) : (s.raise e).txbuf = s.txbuf := rfl
@[simp] theorem State.raise_outputs (s : State) (e : Event) : (s.raise e).outputs = s.outputs := rfl
@[simp] theorem State.raise_events (s : State) (e : Event) : (s.raise e).events = s.events ++ [e] := rfl
@[simp] theorem State.raise_inputs (s : State) (e : Event) : (s.raise e).inputs = s.inputs := rfl
@[simp] theorem State.raise_draws (s : State) (e : Event) : (s.raise e).draws = s.draws := rfl

@[simp] theorem State.emit_cfg (s : State) (o : Output) : (s.emit o).cfg = s.cfg := rfl
@[simp] theorem State.emit_regs (s : State) (o : Output) : (s.emit o).regs = s.regs := rfl
@[simp] theorem State.emit_buf (s : State) (o : Output) : (s.emit o).buf = s.buf := rfl
@[simp] theorem State.emit_len (s : State) (o : Output) : (s.emit o).len = s.len := rfl
@[simp] theorem State.emit_cursor (s : State) (o : Output) : (s.emit o).cursor = s.cursor := rfl
@[simp] theorem State.emit_wait (s : State) (o : Output) : (s.emit o).wait = s.wait := rfl
@[simp] theorem State.emit_err (s : State) (o : Output) : (s.emit o).err = s.err := rfl
@[simp] theorem State.emit_st (s : State) (o : Output) : (s.emit o).st = s.st := rfl
@[simp] theorem State.emit_passActive (s : State) (o : Output) : (s.emit o).passActive = s.passActive := rfl
@[simp] theorem State.emit_crc (s : State) (o : Output) : (s.emit o).crc = s.crc := rfl
@[simp] theorem State.emit_txbuf (s : State) (o : Output) : (s.emit o).txbuf = s.txbuf := rfl
@[simp] theorem State.emit_outputs (s : State) (o : Output) : (s.emit o).outputs = s.outputs ++ [o] := rfl
@[simp] theorem State.emit_events (s : State) (o : Output) : (s.emit o).events = s.events := rfl
@[simp] theorem State.emit_inputs (s : State) (o : Output) : (s.emit o).inputs = s.inputs := rfl
@[simp] theorem State.emit_draws (s : State) (o : Output) : (s.emit o).draws = s.draws := rfl

@[simp] theorem State.fullReset_cfg (s : State) : s.fullReset.cfg = s.cfg := rfl
@[simp] theorem State.fullReset_regs (s : State) : s.fullReset.regs = s.regs := rfl
@[simp] theorem State.fullReset_buf (s : State) : s.fullReset.buf = s.buf := rfl
@[simp] theorem State.fullReset_len (s : State) : s.fullReset.len = 0 := rfl
@[simp] theorem State.fullReset_cursor (s : State) : s.fullReset.cursor = 0 := rfl
@[simp] theorem State.fullReset_wait (s : State) : s.fullReset.wait = 0 := rfl
@[simp] theorem State.fullReset_err (s : State) : s.fullReset.err = false := rfl
@[simp] theorem State.fullReset_st (s : State) : s.fullReset.st = .idleScan := rfl
@[simp] theorem State.fullReset_passActive (s : State) : s.fullReset.passActive = false := rfl
@[simp] theorem State.fullReset_crc (s : State) : s.fullReset.crc = s.crc := rfl
@[simp] theorem State.fullReset_txbuf (s : State) : s.fullReset.txbuf = s.txbuf := rfl
@[simp] theorem State.fullReset_outputs (s : State) : s.fullReset.outputs = s.outputs := rfl
@[simp] theorem State.fullReset_events (s : State) : s.fullReset.events = s.events := rfl
@[simp] theorem State.fullReset_inputs (s : State) : s.fullReset.inputs = s.inputs := rfl
@[simp] theorem State.fullReset_draws (s : State) : s.fullReset.draws = s.draws := rfl

@[simp] theorem State.appendByte_cfg (s : State) (b : Byte) : (s.appendByte b).cfg = s.cfg := rfl
@[simp] theorem State.appendByte_regs (s : State) (b : Byte) : (s.appendByte b).regs = s.regs := rfl
@[simp] theorem State.appendByte_buf (s : State) (b : Byte) : (s.appendByte b).buf = Memory.write s.buf s.len b := rfl
@[simp] theorem State.appendByte_len (s : State) (b : Byte) : (s.appendByte b).len = s.len + 1 := rfl
@[simp] theorem State.appendByte_cursor (s : State) (b : Byte) : (s.appendByte b).cursor = s.cursor := rfl
@[simp] theorem State.appendByte_wait (s : State) (b : Byte) : (s.appendByte b).wait = s.wait := rfl
@[simp] theorem State.appendByte_err (s : State) (b : Byte) : (s.appendByte b).err = s.err := rfl
@[simp] theorem State.appendByte_st (s : State) (b : Byte) : (s.appendByte b).st = s.st := rfl
@[simp] theorem State.appendByte_passActive (s : State) (b : Byte) : (s.appendByte b).passActive = s.passActive := rfl
@[simp] theorem State.appendByte_crc (s : State) (b : Byte) : (s.appendByte b).crc = s.crc := rfl
@[simp] theorem State.appendByte_txbuf (s : State) (b : Byte) : (s.appendByte b).txbuf = s.txbuf := rfl
@[simp] theorem State.appendByte_outputs (s : State) (b : Byte) : (s.appendByte b).outputs = s.outputs := rfl
@[simp] theorem State.appendByte_events (s : State) (b : Byte) : (s.appendByte b).events = s.events := rfl
@[simp] theorem State.appendByte_inputs (s : State) (b : Byte) : (s.appendByte b).inputs = s.inputs := rfl
@[simp] theorem State.appendByte_draws (s : State) (b : Byte) : (s.appendByte b).draws = s.draws := rfl

@[simp] theorem State.setErr_cfg (s : State) : s.setErr.cfg = s.cfg := rfl
@[simp] theorem State.setErr_regs (s : State) : s.setErr.regs = s.regs := rfl
@[simp] theorem State.setErr_buf (s : State) : s.setErr.buf = s.buf := rfl
@[simp] theorem State.setErr_len (s : State) : s.setErr.len = s.len := rfl
@[simp] theorem State.setErr_cursor (s : State) : s.setErr.cursor = s.cursor := rfl
@[simp] theorem State.setErr_wait (s : State) : s.setErr.wait = s.wait := rfl
@[simp] theorem State.setErr_err (s : State) : s.setErr.err = true := rfl
@[simp] theorem State.setErr_st (s : State) : s.setErr.st = s.st := rfl
@[simp] theorem State.setErr_passActive (s : State) : s.setErr.passActive = s.passActive := rfl
@[simp] theorem State.setErr_crc (s : State) : s.setErr.crc = s.crc := rfl
@[simp] theorem State.setErr_txbuf (s : State) : s.setErr.txbuf = s.txbuf := rfl
@[simp] theorem State.setErr_outputs (s : State) : s.setErr.outputs = s.outputs := rfl
@[simp] theorem State.setErr_events (s : State) : s.setErr.events = s.events := rfl
@[simp] theorem State.setErr_inputs (s : State) : s.setErr.inputs = s.inputs := rfl
@[simp] theorem State.setErr_draws (s : State) : s.setErr.draws = s.draws := rfl

@[simp] theorem State.beginPass_cfg (s : State) : s.beginPass.cfg = s.cfg := rfl
@[simp] theorem State.beginPass_regs (s : State) : s.beginPass.regs = s.regs := rfl
@[simp] theorem State.beginPass_buf (s : State) : s.beginPass.buf = s.buf := rfl
@[simp] theorem State.beginPass_len (s : State) : s.beginPass.len = s.len := rfl
@[simp] theorem State.beginPass_cursor (s : State) : s.beginPass.cursor = s.cursor := rfl
@[simp] theorem State.beginPass_wait (s : State) : s.beginPass.wait = s.wait := rfl
@[simp] theorem State.beginPass_err (s : State) : s.beginPass.err = s.err := rfl
@[simp] theorem State.beginPass_st (s : State) : s.beginPass.st = s.st := rfl
@[simp] theorem State.beginPass_passActive (s : State) : s.beginPass.passActive = true := rfl
@[simp] theorem State.beginPass_crc (s : State) : s.beginPass.crc = s.crc := rfl
@[simp] theorem State.beginPass_txbuf (s : State) : s.beginPass.txbuf = s.txbuf := rfl
@[simp] theorem State.beginPass_outputs (s : State) : s.beginPass.outputs = s.outputs := rfl
@[simp] theorem State.beginPass_events (s : State) : s.beginPass.events = s.events := rfl
@[simp] theorem State.beginPass_inputs (s : State) : s.beginPass.inputs = s.inputs := rfl
@[simp] theorem State.beginPass_draws (s : State) : s.beginPass.draws = s.draws := rfl

@[simp] theorem State.advance_cfg (s : State) : s.advance.cfg = s.cfg := rfl
@[simp] theorem State.advance_regs (s : State) : s.advance.regs = s.regs := rfl
@[simp] theorem State.advance_buf (s : State) : s.advance.buf = s.buf := rfl
@[simp] theorem State.advance_len (s : State) : s.advance.len = s.len := rfl
@[simp] theorem State.advance_cursor (s : State) : s.advance.cursor = s.cursor + 1 := rfl
@[simp] theorem State.advance_wait (s : State) : s.advance.wait = 0 := rfl
@[simp] theorem State.advance_err (s : State) : s.advance.err = s.err := rfl
@[simp] theorem State.advance_st (s : State) : s.advance.st = .idleScan := rfl
@[simp] theorem State.advance_passActive (s : State) : s.advance.passActive = s.passActive := rfl
@[simp] theorem State.advance_crc (s : State) : s.advance.crc = s.crc := rfl
@[simp] theorem State.advance_txbuf (s : State) : s.advance.txbuf = s.txbuf := rfl
@[simp] theorem State.advance_outputs (s : State) : s.advance.outputs = s.outputs := rfl
@[simp] theorem State.advance_events (s : State) : s.advance.events = s.events := rfl
@[simp] theorem State.advance_inputs (s : State) : s.advance.inputs = s.inputs := rfl
@[simp] theorem State.advance_draws (s : State) : s.advance.draws = s.draws := rfl

@[simp] theorem State.resolve_cfg (s : State) : s.resolve.cfg = s.cfg := rfl
@[simp] theorem State.resolve_regs (s : State) : s.resolve.regs = s.regs := rfl
@[simp] theorem State.resolve_buf (s : State) : s.resolve.buf = s.buf := rfl
@[simp] theorem State.resolve_len (s : State) : s.resolve.len = s.len := rfl
@[simp] theorem State.resolve_cursor (s : State) : s.resolve.cursor = s.cursor := rfl
@[simp] theorem State.resolve_wait (s : State) : s.resolve.wait = s.wait := rfl
@[simp] theorem State.resolve_err (s : State) : s.resolve.err = s.err := rfl
@[simp] theorem State.resolve_st (s : State) : s.resolve.st = .resolved := rfl
@[simp] theorem State.resolve_passActive (s : State) : s.resolve.passActive = false := rfl
@[simp] theorem State.resolve_crc (s : State) : s.resolve.crc = s.crc := rfl
@[simp] theorem State.resolve_txbuf (s : State) : s.resolve.txbuf = s.txbuf := rfl
@[simp] theorem State.resolve_outputs (s : State) : s.resolve.outputs = s.outputs := rfl
@[simp] theorem State.resolve_events (s : State) : s.resolve.events = s.events := rfl
@[simp] theorem State.resolve_inputs (s : State) : s.resolve.inputs = s.inputs := rfl
@[simp] theorem State.resolve_draws (s : State) : s.resolve.draws = s.draws := rfl

@[simp] theorem State.keepWaiting_cfg (s : State) : s.keepWaiting.cfg = s.cfg := rfl
@[simp] theorem State.keepWaiting_regs (s : State) : s.keepWaiting.regs = s.regs := rfl
@[simp] theorem State.keepWaiting_buf (s : State) : s.keepWaiting.buf = s.buf := rfl
@[simp] theorem State.keepWaiting_len (s : State) : s.keepWaiting.len = s.len := rfl
@[simp] theorem State.keepWaiting_cursor (s : State) : s.keepWaiting.cursor = s.cursor := rfl
@[simp] theorem State.keepWaiting_wait (s : State) : s.keepWaiting.wait = s.wait + 1 := rfl
@[simp] theorem State.keepWaiting_err (s : State) : s.keepWaiting.err = s.err := rfl
@[simp] theorem State.keepWaiting_st (s : State) : s.keepWaiting.st = .haveCandidate := rfl
@[simp] theorem State.keepWaiting_passActive (s : State) : s.keepWaiting.passActive = false := rfl
@[simp] theorem State.keepWaiting_crc (s : State) : s.keepWaiting.crc = s.crc := rfl
@[simp] theorem State.keepWaiting_txbuf (s : State) : s.keepWaiting.txbuf = s.txbuf := rfl
@[simp] theorem State.keepWaiting_outputs (s : State) : s.keepWaiting.outputs = s.outputs := rfl
@[simp] theorem State.keepWaiting_events (s : State) : s.keepWaiting.events = s.events := rfl
@[simp] theorem State.keepWaiting_inputs (s : State) : s.keepWaiting.inputs = s.inputs := rfl
@[simp] theorem State.keepWaiting_draws (s : State) : s.keepWaiting.draws = s.draws := rfl

@[simp] theorem State.useEngine_cfg (s : State) : s.useEngine.cfg = s.cfg := rfl
@[simp] theorem State.useEngine_regs (s : State) : s.useEngine.regs = s.regs := rfl
@[simp] theorem State.useEngine_buf (s : State) : s.useEngine.buf = s.buf := rfl
@[simp] theorem State.useEngine_len (s : State) : s.useEngine.len = s.len := rfl
@[simp] theorem State.useEngine_cursor (s : State) : s.useEngine.cursor = s.cursor := rfl
@[simp] theorem State.useEngine_wait (s : State) : s.useEngine.wait = s.wait := rfl
@[simp] theorem State.useEngine_err (s : State) : s.useEngine.err = s.err := rfl
@[simp] theorem State.useEngine_st (s : State) : s.useEngine.st = s.st := rfl
@[simp] theorem State.useEngine_passActive (s : State) : s.useEngine.passActive = s.passActive := rfl
@[simp] theorem State.useEngine_crc (s : State) : s.useEngine.crc = Config.freeCrc s.draws := rfl
@[simp] theorem State.useEngine_txbuf (s : State) : s.useEngine.txbuf = s.txbuf := rfl
@[simp] theorem State.useEngine_outputs (s : State) : s.useEngine.outputs = s.outputs := rfl
@[simp] theorem State.useEngine_events (s : State) : s.useEngine.events = s.events := rfl
@[simp] theorem State.useEngine_inputs (s : State) : s.useEngine.inputs = s.inputs := rfl
@[simp] theorem State.useEngine_draws (s : State) : s.useEngine.draws = s.draws + 1 := rfl

@[simp] theorem State.draw_cfg (s : State) : s.draw.cfg = s.cfg := rfl
@[simp] theorem State.draw_regs (s : State) : s.draw.regs = s.regs := rfl
@[simp] theorem State.draw_buf (s : State) : s.draw.buf = s.buf := rfl
@[simp] theorem State.draw_len (s : State) : s.draw.len = s.len := rfl
@[simp] theorem State.draw_cursor (s : State) : s.draw.cursor = s.cursor := rfl
@[simp] theorem State.draw_wait (s : State) : s.draw.wait = s.wait := rfl
@[simp] theorem State.draw_err (s : State) : s.draw.err = s.err := rfl
@[simp] theorem State.draw_st (s : State) : s.draw.st = s.st := rfl
@[simp] theorem State.draw_passActive (s : State) : s.draw.passActive = s.passActive := rfl
@[simp] theorem State.draw_crc (s : State) : s.draw.crc = s.crc := rfl
@[simp] theorem State.draw_txbuf (s : State) : s.draw.txbuf = s.txbuf := rfl
@[simp] theorem State.draw_outputs (s : State) : s.draw.outputs = s.outputs := rfl
@[simp] theorem State.draw_events (s : State) : s.draw.events = s.events := rfl
@[simp] theorem State.draw_inputs (s : State) : s.draw.inputs = s.inputs := rfl
@[simp] theorem State.draw_draws (s : State) : s.draw.draws = s.draws + 1 := rfl

@[simp] theorem State.forget_cfg (s : State) : s.forget.cfg = s.cfg := rfl
@[simp] theorem State.forget_regs (s : State) : s.forget.regs = s.regs := rfl
@[simp] theorem State.forget_buf (s : State) : s.forget.buf = [] := rfl
@[simp] theorem State.forget_len (s : State) : s.forget.len = s.len := rfl
@[simp] theorem State.forget_cursor (s : State) : s.forget.cursor = s.cursor := rfl
@[simp] theorem State.forget_wait (s : State) : s.forget.wait = s.wait := rfl
@[simp] theorem State.forget_err (s : State) : s.forget.err = s.err := rfl
@[simp] theorem State.forget_st (s : State) : s.forget.st = s.st := rfl
@[simp] theorem State.forget_passActive (s : State) : s.forget.passActive = s.passActive := rfl
@[simp] theorem State.forget_crc (s : State) : s.forget.crc = Config.freeCrc s.draws := rfl
@[simp] theorem State.forget_txbuf (s : State) : s.forget.txbuf = [] := rfl
@[simp] theorem State.forget_outputs (s : State) : s.forget.outputs = s.outputs := rfl
@[simp] theorem State.forget_events (s : State) : s.forget.events = s.events := rfl
@[simp] theorem State.forget_inputs (s : State) : s.forget.inputs = s.inputs := rfl
@[simp] theorem State.forget_draws (s : State) : s.forget.draws = s.draws + 1 := rfl

@[simp] theorem State.withInputs_cfg (s : State) (r : List Input) : (s.withInputs r).cfg = s.cfg := rfl
@[simp] theorem State.withInputs_regs (s : State) (r : List Input) : (s.withInputs r).regs = s.regs := rfl
@[simp] theorem State.withInputs_buf (s : State) (r : List Input) : (s.withInputs r).buf = s.buf := rfl
@[simp] theorem State.withInputs_len (s : State) (r : List Input) : (s.withInputs r).len = s.len := rfl
@[simp] theorem State.withInputs_cursor (s : State) (r : List Input) : (s.withInputs r).cursor = s.cursor := rfl
@[simp] theorem State.withInputs_wait (s : State) (r : List Input) : (s.withInputs r).wait = s.wait := rfl
@[simp] theorem State.withInputs_err (s : State) (r : List Input) : (s.withInputs r).err = s.err := rfl
@[simp] theorem State.withInputs_st (s : State) (r : List Input) : (s.withInputs r).st = s.st := rfl
@[simp] theorem State.withInputs_passActive (s : State) (r : List Input) : (s.withInputs r).passActive = s.passActive := rfl
@[simp] theorem State.withInputs_crc (s : State) (r : List Input) : (s.withInputs r).crc = s.crc := rfl
@[simp] theorem State.withInputs_txbuf (s : State) (r : List Input) : (s.withInputs r).txbuf = s.txbuf := rfl
@[simp] theorem State.withInputs_outputs (s : State) (r : List Input) : (s.withInputs r).outputs = s.outputs := rfl
@[simp] theorem State.withInputs_events (s : State) (r : List Input) : (s.withInputs r).events = s.events := rfl
@[simp] theorem State.withInputs_inputs (s : State) (r : List Input) : (s.withInputs r).inputs = r := rfl
@[simp] theorem State.withInputs_draws (s : State) (r : List Input) : (s.withInputs r).draws = s.draws := rfl
@[simp] theorem State.withInputs_fsmVector (s : State) (r : List Input) : (s.withInputs r).fsmVector = s.fsmVector := rfl
@[simp] theorem State.withInputs_self (s : State) : s.withInputs s.inputs = s := rfl

/-- A second full reset in a row changes nothing (R162, R230). -/
@[simp] theorem State.fullReset_fullReset (s : State) : s.fullReset.fullReset = s.fullReset := rfl

/-- The state after reset, field by field where the spec gives a value (R32). -/
@[simp] theorem State.resetWith_cfg (c : Config) : (State.resetWith c).cfg = c := rfl
@[simp] theorem State.resetWith_regs (c : Config) : (State.resetWith c).regs = c.regInit := rfl
@[simp] theorem State.resetWith_buf (c : Config) : (State.resetWith c).buf = [] := rfl
@[simp] theorem State.resetWith_len (c : Config) : (State.resetWith c).len = 0 := rfl
@[simp] theorem State.resetWith_cursor (c : Config) : (State.resetWith c).cursor = 0 := rfl
@[simp] theorem State.resetWith_wait (c : Config) : (State.resetWith c).wait = 0 := rfl
@[simp] theorem State.resetWith_err (c : Config) : (State.resetWith c).err = false := rfl
@[simp] theorem State.resetWith_st (c : Config) : (State.resetWith c).st = .idleScan := rfl
@[simp] theorem State.resetWith_passActive (c : Config) : (State.resetWith c).passActive = false := rfl
@[simp] theorem State.resetWith_txbuf (c : Config) : (State.resetWith c).txbuf = [] := rfl
@[simp] theorem State.resetWith_inputs (c : Config) : (State.resetWith c).inputs = [] := rfl

end Sys2Proof.Machine
end

