-- ==== Sys2Proof/Laws/Memory.lean ====
section
/-! SUPPORT. The laws of the byte arrays: read after write, the canonical form, and what the committed-byte reads
answer. -/

namespace Sys2Proof.Machine

open Sys2Proof

@[simp] theorem Memory.read_nil (a : Nat) : Memory.read [] a = none := rfl

/-- A read after a write to the same cell gives the value written. -/
@[simp] theorem Memory.read_write_same (m : List Host.Cell) (a : Nat) (v : Byte) :
    Memory.read (Memory.write m a v) a = some v := by
  induction m with
  | nil => simp [Memory.write, Memory.read]
  | cons p m ih =>
    obtain ⟨x, b⟩ := p
    unfold Memory.write
    split
    · simp [Memory.read]
    · split
      · simp [Memory.read]
      · rename_i h; simp [Memory.read, h, ih]

/-- A write leaves every other cell alone. -/
theorem Memory.read_write_other (m : List Host.Cell) (a a' : Nat) (v : Byte) (h : a' ≠ a) :
    Memory.read (Memory.write m a v) a' = Memory.read m a' := by
  induction m with
  | nil => simp [Memory.write, Memory.read, h]
  | cons p m ih =>
    obtain ⟨x, b⟩ := p
    unfold Memory.write
    split
    · simp [Memory.read, h]
    · split
      · rename_i h2; subst h2; simp [Memory.read, h]
      · simp [Memory.read, ih]

/-- The cells a write leaves listed: the written one, or one that was listed. -/
theorem Memory.mem_write (m : List Host.Cell) (a : Nat) (v : Byte) (p : Host.Cell)
    (h : p ∈ Memory.write m a v) : p = (a, v) ∨ p ∈ m := by
  induction m with
  | nil => simpa [Memory.write] using h
  | cons q m ih =>
    obtain ⟨x, b⟩ := q
    unfold Memory.write at h
    split at h
    · simpa using h
    · split at h
      · rcases List.mem_cons.1 h with h | h
        · exact .inl h
        · exact .inr (List.mem_cons_of_mem _ h)
      · rcases List.mem_cons.1 h with h | h
        · exact .inr (h ▸ List.mem_cons_self)
        · exact (ih h).imp id (List.mem_cons_of_mem _)

/-- A write keeps the canonical form. -/
theorem Memory.write_wf (m : List Host.Cell) (a : Nat) (v : Byte) (h : Memory.wf m) :
    Memory.wf (Memory.write m a v) := by
  induction m with
  | nil => simp [Memory.wf, Memory.write]
  | cons p m ih =>
    obtain ⟨x, b⟩ := p
    have hm : ∀ q ∈ m, x < q.1 := (List.pairwise_cons.1 h).1
    have hw : Memory.wf m := (List.pairwise_cons.1 h).2
    unfold Memory.write
    split
    · rename_i hlt
      refine List.pairwise_cons.2 ⟨fun q hq => ?_, h⟩
      rcases List.mem_cons.1 hq with hq | hq
      · subst hq; exact hlt
      · exact Nat.lt_trans hlt (hm q hq)
    · split
      · rename_i heq
        subst heq
        exact List.pairwise_cons.2 ⟨hm, hw⟩
      · refine List.pairwise_cons.2 ⟨fun q hq => ?_, ih hw⟩
        rcases Memory.mem_write m a v q hq with hq | hq
        · subst hq; show x < a; omega
        · exact hm q hq

/-- Writing a sequence keeps the canonical form. -/
theorem Memory.writeAll_wf (m : List Host.Cell) (a : Nat) (vs : List Byte) (h : Memory.wf m) :
    Memory.wf (Memory.writeAll m a vs) := by
  induction vs generalizing m a with
  | nil => exact h
  | cons v vs ih => exact ih _ _ (Memory.write_wf m a v h)

/-- Writing a sequence leaves every cell outside it alone. -/
theorem Memory.read_writeAll_other (m : List Host.Cell) (a a' : Nat) (vs : List Byte)
    (h : a' < a ∨ a + vs.length ≤ a') :
    Memory.read (Memory.writeAll m a vs) a' = Memory.read m a' := by
  induction vs generalizing m a with
  | nil => rfl
  | cons v vs ih =>
    have hl : (v :: vs).length = vs.length + 1 := rfl
    rw [Memory.writeAll, ih _ _ (by omega), Memory.read_write_other _ _ _ _ (by omega)]

/-- Writing a sequence puts its `k`-th byte at the `k`-th index. -/
theorem Memory.read_writeAll (m : List Host.Cell) (a k : Nat) (vs : List Byte) (h : k < vs.length) :
    Memory.read (Memory.writeAll m a vs) (a + k) = vs[k]? := by
  induction vs generalizing m a k with
  | nil => simp at h
  | cons v vs ih =>
    cases k with
    | zero =>
      rw [Memory.writeAll, Nat.add_zero, Memory.read_writeAll_other _ _ _ _ (by omega)]
      simp
    | succ k =>
      have := ih (Memory.write m a v) (a + 1) k (by simpa using h)
      rw [Memory.writeAll, show a + (k + 1) = a + 1 + k by omega, this]
      simp

/-- The cells a sequence leaves listed. -/
theorem Memory.mem_writeAll (m : List Host.Cell) (a : Nat) (vs : List Byte) (p : Host.Cell)
    (h : p ∈ Memory.writeAll m a vs) : (a ≤ p.1 ∧ p.1 < a + vs.length) ∨ p ∈ m := by
  induction vs generalizing m a with
  | nil => exact .inr h
  | cons v vs ih =>
    have hl : (v :: vs).length = vs.length + 1 := rfl
    rcases ih _ _ h with h | h
    · left; omega
    · rcases Memory.mem_write _ _ _ _ h with h | h
      · left; subst h; show a ≤ a ∧ a < _; omega
      · exact .inr h

/-- What `readCells` answers: as many bytes as asked for, each the value of its cell. -/
theorem readCells_ok (m : List Host.Cell) (a n : Nat) (bs : List Byte) (h : readCells m a n = .ok bs) :
    bs.length = n ∧ ∀ k, k < n → Memory.read m (a + k) = some (byteAt bs k) := by
  induction n generalizing a bs with
  | zero =>
    simp [readCells] at h
    subst h
    exact ⟨rfl, fun k hk => absurd hk (Nat.not_lt_zero k)⟩
  | succ n ih =>
    unfold readCells at h
    split at h
    · cases h
    · rename_i b hb
      split at h
      · cases h
      · rename_i cs hcs
        cases h
        obtain ⟨hl, hk⟩ := ih _ _ hcs
        refine ⟨by simp [hl], fun k hlt => ?_⟩
        cases k with
        | zero => simpa [byteAt] using hb
        | succ k =>
          have := hk k (by omega)
          rw [show a + (k + 1) = a + 1 + k by omega, this]
          simp [byteAt]

/-- When `readCells` answers: whenever every cell holds a value. -/
theorem readCells_of_cells (m : List Host.Cell) (a : Nat) (bs : List Byte)
    (h : ∀ k, k < bs.length → Memory.read m (a + k) = some (byteAt bs k)) :
    readCells m a bs.length = .ok bs := by
  induction bs generalizing a with
  | nil => rfl
  | cons b bs ih =>
    have h0 : Memory.read m a = some b := by simpa [byteAt] using h 0 (by simp)
    have ht : readCells m (a + 1) bs.length = .ok bs := ih _ fun k hk => by
      have := h (k + 1) (by simpa using hk)
      rw [show a + (k + 1) = a + 1 + k by omega] at this
      simpa [byteAt] using this
    simp [readCells, h0, ht]

/-- Some bytes are read wherever every cell holds a value. -/
theorem readCells_exists (m : List Host.Cell) (a n : Nat)
    (h : ∀ k, k < n → (Memory.read m (a + k)).isSome = true) : ∃ bs, readCells m a n = .ok bs := by
  induction n generalizing a with
  | zero => exact ⟨[], rfl⟩
  | succ n ih =>
    obtain ⟨b, hb⟩ := Option.isSome_iff_exists.1 (h 0 (by omega))
    obtain ⟨bs, hbs⟩ := ih (a + 1) fun k hk => by
      have := h (k + 1) (by omega)
      rwa [show a + (k + 1) = a + 1 + k by omega] at this
    exact ⟨b :: bs, by simp [readCells, show Memory.read m a = some b from hb, hbs]⟩

/-- Everything `MemRead(a, n)` can answer: it was within the committed length (R55), and the bytes are the cells'. -/
theorem memRead_ok (s : State) (a n : Nat) (bs : List Byte) (h : memRead s a n = .ok bs) :
    a + n ≤ s.len ∧ bs.length = n ∧ ∀ k, k < n → Memory.read s.buf (a + k) = some (byteAt bs k) := by
  unfold memRead at h
  split at h
  · rename_i hle
    exact ⟨hle, readCells_ok _ _ _ _ h⟩
  · cases h

/-- `MemRead(a, n)` at or above the committed length faults (R55). -/
theorem memRead_beyond (s : State) (a n : Nat) (h : s.len < a + n) :
    memRead s a n = .error .readBeyondCommitted := by
  have : ¬ a + n ≤ s.length := by unfold State.length; omega
  simp [memRead, this]

/-- `MemRead(a, n)` gives the cells' bytes below the committed length. -/
theorem memRead_of_cells (s : State) (a : Nat) (bs : List Byte) (hle : a + bs.length ≤ s.len)
    (h : ∀ k, k < bs.length → Memory.read s.buf (a + k) = some (byteAt bs k)) :
    memRead s a bs.length = .ok bs := by
  have : a + bs.length ≤ s.length := hle
  simp [memRead, this, readCells_of_cells _ _ _ h]

/-- `BufRead(a)` gives the byte of a committed cell. -/
theorem bufRead_of_cell (s : State) (a : Nat) (b : Byte) (hlt : a < s.len)
    (h : Memory.read s.buf a = some b) : bufRead s a = .ok b := by
  have h1 : memRead s a 1 = .ok [b] :=
    memRead_of_cells s a [b] (by simpa [Nat.succ_le_iff] using hlt) fun k hk => by
      have : k = 0 := by simpa using hk
      subst this
      simpa [byteAt] using h
  simp [bufRead, h1, byteAt]

/-- Everything `BufRead(a)` can answer. -/
theorem bufRead_ok (s : State) (a : Nat) (b : Byte) (h : bufRead s a = .ok b) :
    a < s.len ∧ Memory.read s.buf a = some b := by
  unfold bufRead at h
  split at h
  · rename_i bs hbs
    cases h
    obtain ⟨hle, -, hk⟩ := memRead_ok s a 1 bs hbs
    exact ⟨by omega, by simpa using hk 0 (by omega)⟩
  · cases h

/-- The register reads of R201 succeed within the table and give its entries in order. -/
theorem readRegs_of_bound (s : State) (i n : Nat) (h : i + n ≤ s.regs.length) :
    readRegs s i n = .ok ((s.regs.drop i).take n) := by
  induction n generalizing i with
  | zero => simp [readRegs]
  | succ n ih =>
    have hi : i < s.regs.length := by omega
    have hr : readReg s i = .ok s.regs[i] := by unfold readReg; rw [List.getElem?_eq_getElem hi]
    rw [readRegs, hr, ih (i + 1) (by omega)]
    rw [List.drop_eq_getElem_cons hi, List.take_succ_cons]

/-- The memory right after reset has the canonical form. -/
theorem reset_memory_wf : Memory.wf State.reset.buf ∧ Memory.wf State.reset.txbuf := by
  decide

end Sys2Proof.Machine
end

