-- ==== Sys2Proof/Laws/Ops.lean ====
section
/-! SUPPORT. For each shared operation, once, everything it can do. -/

namespace Sys2Proof.Machine

open Sys2Proof

/-- The incomplete observation that waits (42_frame_scanner.md R157). -/
theorem incompleteObservation_wait (s : State) (h : s.wait + 1 ≠ s.cfg.maxWait) :
    incompleteObservation s = s.keepWaiting.raise (.incomplete s.cursor (s.wait + 1)) := by
  simp [incompleteObservation, h]

/-- The incomplete observation that times out (R157). -/
theorem incompleteObservation_stall (s : State) (h : s.wait + 1 = s.cfg.maxWait) :
    incompleteObservation s = (s.raise (.stalledPartialFrame s.cursor)).fullReset := by
  simp [incompleteObservation, h]

/-- The read candidate that verifies (R160). -/
theorem readCandidate_valid (f : List Byte) (s : State) (h : verify f = true) :
    readCandidate f s = s.useEngine.resolve.raise (.frameValid s.cursor) := by
  simp [readCandidate, h]

/-- The read candidate that does not (R158). -/
theorem readCandidate_invalid (f : List Byte) (s : State) (h : verify f = false) :
    readCandidate f s = (s.useEngine.raise (.checksumMismatch s.cursor)).advance := by
  simp [readCandidate, h]

/-- A full candidate's three outcomes (R153). -/
theorem fullCandidate_cases (f : List Byte) (s : State) :
    (byteAt f 1 = cmdRead ∧ verify f = true ∧
      fullCandidate f s = s.useEngine.resolve.raise (.frameValid s.cursor)) ∨
    (byteAt f 1 = cmdRead ∧ verify f = false ∧
      fullCandidate f s = (s.useEngine.raise (.checksumMismatch s.cursor)).advance) ∨
    (byteAt f 1 ≠ cmdRead ∧
      fullCandidate f s = (s.raise (.unrecognizedCommand s.cursor (byteAt f 1))).advance) := by
  by_cases hc : byteAt f 1 = cmdRead
  · cases hv : verify f
    · exact .inr (.inl ⟨hc, rfl, by rw [fullCandidate, if_pos hc, readCandidate_invalid f s hv]⟩)
    · exact .inl ⟨hc, rfl, by rw [fullCandidate, if_pos hc, readCandidate_valid f s hv]⟩
  · exact .inr (.inr ⟨hc, by rw [fullCandidate, if_neg hc]; rfl⟩)

@[simp] theorem dataBytes_length (vs : List Word) : (dataBytes vs).length = 2 * vs.length := by
  induction vs with
  | nil => rfl
  | cons v vs ih => simp [dataBytes, ih]; omega

@[simp] theorem responseBody_length (f : List Byte) (vs : List Word) :
    (responseBody f vs).length = 3 + 2 * vs.length := by
  simp [responseBody]; omega

@[simp] theorem withChecksum_length (r : List Byte) : (withChecksum r).length = r.length + 2 := by
  simp [withChecksum, checksumBytes]

/-- Building within the table (44_response_builder.md R201). -/
theorem buildBody_of_bound (s : State) (f : List Byte)
    (h : (startOf f).toNat + (countOf f).toNat ≤ s.regs.length) :
    buildBody s f = .ok (responseBody f ((s.regs.drop (startOf f).toNat).take (countOf f).toNat)) := by
  simp only [buildBody, readRegs_of_bound s _ _ h]

/-- Everything `sendResponse` can do: the hand-over of what was built, which fits the staging buffer. -/
theorem sendResponse_ok (f : List Byte) (s t : State) (h : sendResponse f s = .ok t) :
    ∃ body, buildBody s f = .ok body ∧ (withChecksum body).length ≤ s.cfg.txCap ∧ t = handOver f body s := by
  unfold sendResponse at h
  split at h
  · cases h
  · rename_i body hb
    split at h
    · rename_i hle
      cases h
      exact ⟨body, hb, hle, rfl⟩
    · cases h

/-- Sending within the table and the staging buffer. -/
theorem sendResponse_of_bound (f : List Byte) (s : State) (body : List Byte) (hb : buildBody s f = .ok body)
    (hle : (withChecksum body).length ≤ s.cfg.txCap) : sendResponse f s = .ok (handOver f body s) := by
  simp only [sendResponse, hb, if_pos hle]

section handOver

variable (f body : List Byte) (s : State)

@[simp] theorem handOver_cfg : (handOver f body s).cfg = s.cfg := rfl
@[simp] theorem handOver_regs : (handOver f body s).regs = s.regs := rfl
@[simp] theorem handOver_buf : (handOver f body s).buf = s.buf := rfl
@[simp] theorem handOver_len : (handOver f body s).len = s.len := rfl
@[simp] theorem handOver_cursor : (handOver f body s).cursor = s.cursor := rfl
@[simp] theorem handOver_wait : (handOver f body s).wait = s.wait := rfl
@[simp] theorem handOver_err : (handOver f body s).err = s.err := rfl
@[simp] theorem handOver_st : (handOver f body s).st = s.st := rfl
@[simp] theorem handOver_passActive : (handOver f body s).passActive = s.passActive := rfl
@[simp] theorem handOver_crc : (handOver f body s).crc = Config.freeCrc s.draws := rfl
@[simp] theorem handOver_txbuf :
    (handOver f body s).txbuf = Memory.writeAll s.txbuf 0 (withChecksum body) := rfl
@[simp] theorem handOver_outputs :
    (handOver f body s).outputs = s.outputs ++ [.tx (withChecksum body)] := rfl
@[simp] theorem handOver_events :
    (handOver f body s).events = s.events ++ [.responseSent (startOf f) (countOf f)] := rfl
@[simp] theorem handOver_inputs : (handOver f body s).inputs = s.inputs := rfl
@[simp] theorem handOver_draws : (handOver f body s).draws = s.draws + 1 := rfl

end handOver

/-- The frame a buffer holds at the cursor is the one the operations read (20_memory.md R55). -/
theorem memRead_of_holdsFrame (s : State) (p : Nat) (f : List Byte) (h : s.holdsFrame p f) :
    memRead s p frameLen = .ok f := by
  obtain ⟨hl, hle, hk⟩ := h
  have := memRead_of_cells s p f (by omega) (by rwa [hl])
  rwa [hl] at this

/-- And the frame the operations read is one the buffer holds. -/
theorem holdsFrame_of_memRead (s : State) (p : Nat) (f : List Byte) (h : memRead s p frameLen = .ok f) :
    s.holdsFrame p f := by
  obtain ⟨hle, hl, hk⟩ := memRead_ok s p frameLen f h
  exact ⟨hl, hle, hk⟩

/-- What a pending response is (93_implementation_defined.md U8). -/
theorem pendingResponse_some (s : State) (r : List Byte) (h : pendingResponse s = some r) :
    s.st = .resolved ∧ ∃ f, frameAtCursor s = .ok f ∧ inRange s.cfg (startOf f) (countOf f) = true ∧
      build s f = .ok r := by
  unfold pendingResponse at h
  split at h
  · rename_i hst
    refine ⟨(respondEnabled_iff s).1 hst, ?_⟩
    split at h
    · rename_i f hf
      split at h
      · rename_i hr
        split at h
        · rename_i r' hb
          cases h
          exact ⟨f, hf, hr, hb⟩
        · cases h
      · cases h
    · cases h
  · cases h

/-- Everything `RESET` can do to the output stream (U8). -/
theorem cutResponse_cases (s : State) :
    cutResponse s = s ∨ ∃ r, pendingResponse s = some r ∧
      cutResponse s = s.emit (.txCut (r.take (Config.freeCut s.draws))) := by
  unfold cutResponse
  split
  · rename_i r h
    exact .inr ⟨r, h, rfl⟩
  · exact .inl rfl

end Sys2Proof.Machine
end

