-- ==== Sys2Proof/Laws/Exec.lean ====
section
/-! SUPPORT. One inversion lemma per meaning (if it answers a next state, one of these cases holds) and one for the
step; invariants and whole-machine rules are derived from them. -/

namespace Sys2Proof.Machine

open Sys2Proof

/-- The `FSM` vector selects `SCAN_STEP` (30_encoding.md R94). -/
theorem decode_fsm_scan (s : State) (hp : s.passActive = true) (hs : s.st ≠ .resolved) :
    decode (.fsm s.fsmVector) = .ok .scanStep := by
  cases h : s.st <;> simp_all [State.fsmVector, ScanState.code, decode, decodeFsm]

/-- The `FSM` vector selects `RESPOND` (R94). -/
theorem decode_fsm_respond (s : State) (hp : s.passActive = false) (hs : s.st = .resolved) :
    decode (.fsm s.fsmVector) = .ok .respond := by
  simp [State.fsmVector, ScanState.code, decode, decodeFsm, hp, hs]

/-- The `FSM` vector of a quiescent state selects nothing (R94, R254). -/
theorem decode_fsm_quiescent (s : State) (hp : s.passActive = false) (hs : s.st ≠ .resolved) :
    decode (.fsm s.fsmVector) = .error .noOperation := by
  cases h : s.st <;> simp_all [State.fsmVector, ScanState.code, decode, decodeFsm]

/-- The `FSM` vector no run reaches (10_state.md R27). -/
theorem decode_fsm_unreachable (s : State) (hp : s.passActive = true) (hs : s.st = .resolved) :
    decode (.fsm s.fsmVector) = .error .unreachableFsm := by
  simp [State.fsmVector, ScanState.code, decode, decodeFsm, hp, hs]

/-- Everything `RESET` can do (70_reset_and_hazards.md R250). -/
theorem execReset_next (s t : State) (h : execReset s = .next t) :
    t = s.forget.fullReset ∨ ∃ r, pendingResponse s = some r ∧
      t = (s.emit (.txCut (r.take (Config.freeCut s.draws)))).forget.fullReset := by
  cases h
  rcases cutResponse_cases s with h | ⟨r, hr, h⟩
  · exact .inl (by rw [h])
  · exact .inr ⟨r, hr, by rw [h]⟩

/-- Everything `RX_PUSH` can do (41_intake_fifo.md R130, R131). -/
theorem execRxPush_next (b : Byte) (s t : State) (h : execRxPush b s = .next t) :
    (s.len < s.cfg.cap ∧ t = s.appendByte b) ∨
    (s.cfg.cap ≤ s.len ∧ t = s.setErr.raise (.bufferOverflow b)) := by
  unfold execRxPush at h
  split at h
  · rename_i hlt; cases h; exact .inl ⟨hlt, rfl⟩
  · rename_i hge; cases h; exact .inr ⟨by omega, rfl⟩

/-- Everything `POLL_START` can do (42_frame_scanner.md R150 to R152; 30_encoding.md R93). -/
theorem execPollStart_next (s t : State) (h : execPollStart s = .next t) :
    (s.quiescent = false ∧ t = s) ∨
    (s.quiescent = true ∧ s.err = true ∧ t = (s.raise .errorReset).fullReset) ∨
    (s.quiescent = true ∧ s.err = false ∧ s.len < frameLen ∧ s.cfg.shortWait = true ∧
      t = incompleteObservation s) ∨
    (s.quiescent = true ∧ s.err = false ∧ s.len < frameLen ∧ s.cfg.shortWait = false ∧
      t = s.raise .shortBuffer) ∨
    (s.quiescent = true ∧ s.err = false ∧ frameLen ≤ s.len ∧ t = s.beginPass) := by
  unfold execPollStart at h
  split at h
  · rename_i hq
    split at h
    · rename_i he; cases h; exact .inr (.inl ⟨hq, he, rfl⟩)
    · rename_i he
      have he : s.err = false := by simpa using he
      split at h
      · rename_i hl
        split at h
        · rename_i hw; cases h; exact .inr (.inr (.inl ⟨hq, he, hl, hw, rfl⟩))
        · rename_i hw; cases h; exact .inr (.inr (.inr (.inl ⟨hq, he, hl, by simpa using hw, rfl⟩)))
      · rename_i hl
        cases h
        exact .inr (.inr (.inr (.inr ⟨hq, he, Nat.le_of_not_lt hl, rfl⟩)))
  · rename_i hq; cases h; exact .inl ⟨by simpa using hq, rfl⟩

/-- Everything `SCAN_STEP` can do (R153): not enabled, flush, noise, incomplete, or a full candidate. -/
theorem execScanStep_next (s t : State) (h : execScanStep s = .next t) :
    (s.passActive = false ∧ t = s) ∨
    (s.passActive = true ∧ s.len ≤ s.cursor ∧ t = (s.raise (.flush s.len)).fullReset) ∨
    (s.passActive = true ∧ s.cursor < s.len ∧ ∃ b, Memory.read s.buf s.cursor = some b ∧
      ((b ≠ deviceId ∧ t = s.advance) ∨
       (b = deviceId ∧ s.len < s.cursor + frameLen ∧ t = incompleteObservation s) ∨
       (b = deviceId ∧ ∃ f, frameAtCursor s = .ok f ∧ t = fullCandidate f s))) := by
  unfold execScanStep at h
  split at h
  · rename_i hp
    split at h
    · rename_i hl; cases h; exact .inr (.inl ⟨hp, hl, rfl⟩)
    · split at h
      · cases h
      · rename_i b hb
        obtain ⟨hlt, hr⟩ := bufRead_ok s s.cursor b hb
        refine .inr (.inr ⟨hp, hlt, b, hr, ?_⟩)
        split at h
        · rename_i hn; cases h; exact .inl ⟨hn, rfl⟩
        · rename_i hn
          have hd : b = deviceId := Classical.not_not.1 hn
          split at h
          · rename_i hi; cases h; exact .inr (.inl ⟨hd, hi, rfl⟩)
          · split at h
            · cases h
            · rename_i f hf; cases h; exact .inr (.inr ⟨hd, f, hf, rfl⟩)
  · rename_i hp; cases h; exact .inl ⟨by simpa [State.scanEnabled] using hp, rfl⟩

/-- Everything `RESPOND` can do (44_response_builder.md R200, R203). -/
theorem execRespond_next (s t : State) (h : execRespond s = .next t) :
    (s.st ≠ .resolved ∧ t = s) ∨
    (s.st = .resolved ∧ ∃ f, frameAtCursor s = .ok f ∧
      ((inRange s.cfg (startOf f) (countOf f) = true ∧ ∃ body, buildBody s f = .ok body ∧
          (withChecksum body).length ≤ s.cfg.txCap ∧ t = (handOver f body s).fullReset) ∨
       (inRange s.cfg (startOf f) (countOf f) = false ∧ s.cfg.bounds = .drop ∧
          t = (s.raise (.requestOutOfRange (startOf f) (countOf f))).fullReset))) := by
  unfold execRespond at h
  split at h
  · rename_i hst
    refine .inr ⟨(respondEnabled_iff s).1 hst, ?_⟩
    split at h
    · cases h
    · rename_i f hf
      refine ⟨f, hf, ?_⟩
      split at h
      · rename_i hr
        split at h
        · cases h
        · rename_i s' hs
          cases h
          obtain ⟨body, hb, hle, rfl⟩ := sendResponse_ok f s s' hs
          exact .inl ⟨hr, body, hb, hle, rfl⟩
      · rename_i hr
        split at h
        · rename_i hd; cases h; exact .inr ⟨by simpa using hr, hd, rfl⟩
        · cases h
  · rename_i hst; cases h; exact .inl ⟨by simpa [State.respondEnabled] using hst, rfl⟩

/-- Everything `RESPONSE n` can do (R201; log 13). -/
theorem execResponse_next (n : Byte) (s t : State) (h : execResponse n s = .next t) :
    t = s ∨ (s.st = .resolved ∧ ∃ f body, frameAtCursor s = .ok f ∧
      inRange s.cfg (startOf f) (countOf f) = true ∧ n = byteCountOf (countOf f) ∧ buildBody s f = .ok body ∧
      (withChecksum body).length ≤ s.cfg.txCap ∧ t = handOver f body s) := by
  unfold execResponse at h
  split at h
  · rename_i hst
    split at h
    · cases h
    · rename_i f hf
      split at h
      · rename_i hr
        split at h
        · cases h
        · rename_i s' hs
          cases h
          obtain ⟨body, hb, hle, ht⟩ := sendResponse_ok f s _ hs
          simp only [Bool.and_eq_true, beq_iff_eq] at hr
          exact .inr ⟨(respondEnabled_iff s).1 hst, f, body, hf, hr.1, hr.2, hb, hle, ht⟩
      · cases h; exact .inl rfl
  · cases h; exact .inl rfl

/-- Everything the scanner's turn can do (R94). -/
theorem runScanner_next (s t : State) (h : runScanner s = .next t) :
    t = s ∨ (s.passActive = true ∧ s.st ≠ .resolved ∧ execScanStep s = .next t) ∨
    (s.passActive = false ∧ s.st = .resolved ∧ execRespond s = .next t) := by
  unfold runScanner runWord at h
  cases hp : s.passActive <;> by_cases hs : s.st = .resolved
  · rw [decode_fsm_respond _ hp hs] at h
    exact .inr (.inr ⟨rfl, hs, h⟩)
  · rw [decode_fsm_quiescent _ hp hs] at h
    cases h; exact .inl rfl
  · rw [decode_fsm_unreachable _ hp hs] at h
    cases h; exact .inl rfl
  · rw [decode_fsm_scan _ hp hs] at h
    exact .inr (.inl ⟨rfl, hs, h⟩)

/-- What one step did, on the state `s` with its schedule already moved on. -/
inductive StepCase (s t : State) : Prop where
  | idle (h : t = s)
  | reset (h : execReset s = .next t)
  | poll (h : execPollStart s = .next t)
  | push (b : Byte) (h : execRxPush b s = .next t)
  | fault (h : execRxFault s = .next t)
  | scan (hp : s.passActive = true) (hs : s.st ≠ .resolved) (h : execScanStep s = .next t)
  | respond (hp : s.passActive = false) (hs : s.st = .resolved) (h : execRespond s = .next t)
  | crcInit (h : execCrcInitOp s = .next t)
  | crcByte (b : Byte) (h : execCrcByte b s = .next t)

/-- The scanner's turn as a step. -/
theorem StepCase.of_scanner (s t : State) (h : runScanner s = .next t) : StepCase s t := by
  rcases runScanner_next s t h with h | ⟨hp, hs, h⟩ | ⟨hp, hs, h⟩
  · exact .idle h
  · exact .scan hp hs h
  · exact .respond hp hs h

/-- What an `RXPORT` vector can select (R93). -/
theorem decodeRx_ok (v : BitVec 10) (i : Instr) (h : decodeRx v = .ok i) : (∃ d, i = .rxPush d) ∨ i = .rxFault := by
  unfold decodeRx at h
  split at h
  · cases h; exact .inl ⟨_, rfl⟩
  · split at h <;> cases h
    exact .inr rfl

/-- What a `CTLPORT` vector can select (R93). -/
theorem decodeCtl_ok (v : BitVec 2) (i : Instr) (h : decodeCtl v = .ok i) : i = .reset ∨ i = .pollStart := by
  unfold decodeCtl at h
  split at h
  · cases h; exact .inl rfl
  · split at h <;> cases h
    exact .inr rfl

/-- What a `CRCPORT` vector can select (R95). -/
theorem decodeCrc_ok (v : BitVec 10) (i : Instr) (h : decodeCrc v = .ok i) :
    i = .crcInitOp ∨ ∃ d, i = .crcByte d := by
  unfold decodeCrc at h
  split at h
  · cases h; exact .inl rfl
  · split at h <;> cases h
    exact .inr ⟨_, rfl⟩

/-- Running a word runs what it decodes to, or nothing. -/
theorem runWord_next (w : PortWord) (s t : State) (h : runWord w s = .next t) :
    t = s ∨ ∃ i, decode w = .ok i ∧ exec i s = .next t := by
  unfold runWord at h
  split at h
  · rename_i i hi; exact .inr ⟨i, hi, h⟩
  · cases h; exact .inl rfl

/-- Everything a step can do: with a well-formed configuration, one operation of a port or of the scanner on the state
with its schedule moved on, or nothing but the schedule moved on. Frame commands and responses are never steps of
their own. -/
theorem step_next (s t : State) (h : step s = .next t) :
    s.cfg.wf = true ∧ ∃ r, StepCase (s.withInputs r) t := by
  unfold step at h
  split at h
  · rename_i hwf
    refine ⟨hwf, ?_⟩
    unfold stepInput at h
    split at h
    · exact ⟨s.inputs, .of_scanner _ _ h⟩
    · exact ⟨_, .of_scanner _ _ h⟩
    · rcases runWord_next _ _ _ h with h | ⟨i, hi, h⟩
      · exact ⟨_, .idle h⟩
      · rcases decodeRx_ok _ _ hi with ⟨d, rfl⟩ | rfl
        · exact ⟨_, .push d h⟩
        · exact ⟨_, .fault h⟩
    · rcases runWord_next _ _ _ h with h | ⟨i, hi, h⟩
      · exact ⟨_, .idle h⟩
      · rcases decodeCtl_ok _ _ hi with rfl | rfl
        · exact ⟨_, .reset h⟩
        · exact ⟨_, .poll h⟩
    · rcases runWord_next _ _ _ h with h | ⟨i, hi, h⟩
      · exact ⟨_, .idle h⟩
      · rcases decodeCrc_ok _ _ hi with rfl | ⟨d, rfl⟩
        · exact ⟨_, .crcInit h⟩
        · exact ⟨_, .crcByte d h⟩
    · cases h; exact ⟨_, .idle rfl⟩
  · cases h

end Sys2Proof.Machine
end

