-- ==== Sys2Proof/Laws/PerInstr.lean ====
section
/-! SUPPORT. For every instruction: its encoding is on the port of its row of opcode_table.json and has the row's
fixed bits. -/

namespace Sys2Proof.Laws

open Sys2Proof

namespace TableRow

/-- The fixed bits of an instruction's row of opcode_table.json, on the row's port. -/
def fits : Instr → PortWord → Prop
  | .read _ _ _, .req w => w.extractLsb' 48 16 = 0x0103
  | .write _ _ _, .req w => w.extractLsb' 48 16 = 0x0104
  | .response n, .rsp h => h.extractLsb' 8 16 = 0x0103 ∧ h.extractLsb' 0 8 = n
  | .reset, .ctl v => v.getLsbD 1 = true
  | .pollStart, .ctl v => v = 0b01
  | .rxPush d, .rx v => v.extractLsb' 8 2 = 0b01 ∧ v.extractLsb' 0 8 = d
  | .rxFault, .rx v => v.extractLsb' 8 2 = 0b10
  | .scanStep, .fsm v => v.extractLsb' 1 2 = 0b10
  | .respond, .fsm v => v = 0b010
  | .crcInitOp, .crc v => v.getLsbD 9 = true
  | .crcByte d, .crc v => v.extractLsb' 8 2 = 0b01 ∧ v.extractLsb' 0 8 = d
  | _, _ => False

/-- The instruction's encoding fits its row. -/
def Statement (i : Instr) : Prop := fits i (encode i)

/-- The two leading bytes of a frame word built from its fields. -/
theorem frame_head (c : Byte) (a k s : Word) :
    (deviceId ++ c ++ a ++ k ++ lo s ++ hi s : BitVec 64).extractLsb' 48 16 = be16 deviceId c := by
  simp only [show ∀ x : BitVec 16, (x ++ a ++ k ++ lo s ++ hi s : BitVec 64).extractLsb' 48 16 = x from
    fun x => by
      rw [BitVec.extractLsb'_append_eq_of_le (by decide), BitVec.extractLsb'_append_eq_of_le (by decide),
        BitVec.extractLsb'_append_eq_of_le (by decide), BitVec.extractLsb'_append_eq_of_le (by decide)]
      exact BitVec.extractLsb'_eq_self]
  rfl

theorem read (start count checksum : Word) : Statement (.read start count checksum) :=
  frame_head cmdRead start count checksum

theorem write (start count checksum : Word) : Statement (.write start count checksum) :=
  frame_head cmdWrite start count checksum

theorem response (n : Byte) : Statement (.response n) := by
  constructor
  · exact BitVec.extractLsb'_append_eq_of_le (by decide)
  · exact (BitVec.extractLsb'_append_eq_of_add_le (by decide)).trans BitVec.extractLsb'_eq_self

theorem reset : Statement .reset := rfl

theorem pollStart : Statement .pollStart := rfl

theorem rxPush (d : Byte) : Statement (.rxPush d) := by
  constructor
  · exact BitVec.extractLsb'_append_eq_of_le (by decide)
  · exact (BitVec.extractLsb'_append_eq_of_add_le (by decide)).trans BitVec.extractLsb'_eq_self

theorem rxFault : Statement .rxFault := rfl

theorem scanStep : Statement .scanStep := rfl

theorem respond : Statement .respond := rfl

theorem crcInitOp : Statement .crcInitOp := rfl

theorem crcByte (d : Byte) : Statement (.crcByte d) := rxPush d

end TableRow

end Sys2Proof.Laws
end

