-- ==== Sys2Proof/Tests/Slice0.lean ====
section
/-! SUPPORT. The model's own tests: the expected values are those of 95_test_vectors.md and of the rules' worked
examples; and, for every statement with hypotheses, a concrete state and operands that meet them. -/

namespace Sys2Proof.Tests

open Sys2Proof Sys2Proof.Machine

-- one kernel check at a time: the checks run in parallel otherwise, a thread and its stack each
set_option Elab.async false

/-- A state with the given committed bytes, otherwise as after reset (reference table, `C = 32`, `MAX_WAIT = 4`). -/
def held (bs : List Byte) : State :=
  { State.reset with buf := Memory.writeAll [] 0 bs, len := bs.length }

/-- The same in a running pass at a cursor. -/
def inPass (bs : List Byte) (cursor : Nat) : State := { held bs with cursor := cursor, passActive := true }

/-- The same with a resolved frame at a cursor. -/
def resolvedAt (bs : List Byte) (cursor : Nat) : State := { held bs with cursor := cursor, st := .resolved }

/-- A property of the state an outcome answers. -/
def after (o : Host.Outcome State Fault Refusal) (p : State → Bool) : Bool :=
  match o with
  | .next s => p s
  | .fault _ => false
  | .refused _ => false

/-- The status outputs `len cursor wait err st`. -/
def status (s : State) : Nat × Nat × Nat × Bool × ScanState := (s.len, s.cursor, s.wait, s.err, s.st)

/-- S1's request `REQ(03, 2, 3)`. -/
def goodFrame : List Byte := [0x01, 0x03, 0x00, 0x02, 0x00, 0x03, 0xA4, 0x0B]
/-- The same with bit 0 of byte 6 flipped (P2). -/
def badFrame : List Byte := [0x01, 0x03, 0x00, 0x02, 0x00, 0x03, 0xA5, 0x0B]
/-- `REQ(04, 2, 3)` (P9). -/
def writeFrame : List Byte := [0x01, 0x04, 0x00, 0x02, 0x00, 0x03, 0x11, 0xCB]
/-- `REQ(03, 8, 3)`, out of range (section 5). -/
def farFrame : List Byte := [0x01, 0x03, 0x00, 0x08, 0x00, 0x03, 0x84, 0x09]
/-- A candidate at 5 with 3 of its 8 bytes (P4). -/
def partialBytes : List Byte := [0xAA, 0xBB, 0xCC, 0xDD, 0xEE, 0x01, 0x03, 0x00]

/-! ### Well-formedness -/

theorem test_wf_reference : Config.reference.wf = true := by decide
theorem test_wf_refuses_small_buffer : ({ Config.reference with cap := 7 } : Config).wf = false := by decide
theorem test_wf_refuses_zero_wait : ({ Config.reference with maxWait := 0 } : Config).wf = false := by decide
theorem test_wf_refuses_small_staging : ({ Config.reference with txCap := 24 } : Config).wf = false := by decide
theorem test_wf_refuses_large_table :
    ({ Config.reference with regInit := List.replicate 128 0, txCap := 1000 } : Config).wf = false := by decide +kernel
theorem test_wf_refuses_odd_response : (Instr.response 0x05).wf = false := by decide
theorem test_wf_accepts_even_response : (Instr.response 0x06).wf = true := by decide

/-! ### Decoding: words written out from R82, R83, R91 and R93 to R95 -/

theorem test_decode_read : decode (.req 0x010300020003A40B#64) = .ok (.read 2 3 0x0BA4) := by decide
theorem test_decode_write : decode (.req 0x01040002000311CB#64) = .ok (.write 2 3 0xCB11) := by decide
theorem test_decode_foreign : decode (.req 0x020300020003A438#64) = .error .foreignDevice := by decide
theorem test_decode_other_command :
    decode (.req 0x0106000200030000#64) = .error (.unrecognizedCommand 0x06) := by decide
theorem test_decode_response : decode (.rsp 0x010314#24) = .ok (.response 0x14) := by decide
theorem test_decode_reset_ignores_poll :
    decode (.ctl 0b10#2) = .ok .reset ∧ decode (.ctl 0b11#2) = .ok .reset := by decide
theorem test_decode_poll : decode (.ctl 0b01#2) = .ok .pollStart ∧ decode (.ctl 0b00#2) = .error .noOperation := by
  decide
theorem test_decode_push : decode (.rx 0b0110100101#10) = .ok (.rxPush 0xA5) := by decide
theorem test_decode_fault : decode (.rx 0b1010100101#10) = .ok .rxFault := by decide
theorem test_decode_push_then_fault :
    decode (.rx 0b1110100101#10) = .ok (.rxPush 0xA5) ∧ rxRest 0b1110100101#10 = some 0b1010100101#10 := by decide
theorem test_decode_fsm : decode (.fsm 0b100#3) = .ok .scanStep ∧ decode (.fsm 0b101#3) = .ok .scanStep ∧
    decode (.fsm 0b010#3) = .ok .respond ∧ decode (.fsm 0b011#3) = .error .unreachableFsm := by decide
theorem test_decode_crc_init_wins : decode (.crc 0b1110100101#10) = .ok .crcInitOp := by decide
theorem test_decode_crc_byte : decode (.crc 0b0110100101#10) = .ok (.crcByte 0xA5) := by decide
theorem test_table_words : decodeTableWord 64 0x0103000000000000 = some (.read 0 0 0) ∧
    decodeTableWord 64 0x0104000000000000 = some (.write 0 0 0) ∧
    decodeTableWord 24 0x010300 = some (.response 0) ∧ decodeTableWord 8 0b11 = some .reset ∧
    decodeTableWord 8 0b01 = some .pollStart ∧ decodeTableWord 8 0b100 = some .scanStep ∧
    decodeTableWord 8 0b010 = some .respond ∧ decodeTableWord 16 0x15A = some (.rxPush 0x5A) ∧
    decodeTableWord 16 0x200 = some .rxFault ∧ decodeTableWord 16 0x300 = some .crcInitOp := by decide
theorem test_encode_words : encode (.read 2 3 0x0BA4) = .req 0x010300020003A40B#64 ∧
    encode (.write 2 3 0xCB11) = .req 0x01040002000311CB#64 ∧ encode (.response 6) = .rsp 0x010306#24 ∧
    encode (.rxPush 0xA5) = .rx 0b0110100101#10 ∧ encode (.crcByte 0xA5) = .crc 0b0110100101#10 := by decide

/-! ### The checksum engine (95_test_vectors.md section 2) -/

theorem test_crc_check_string :
    crc16 [0x31, 0x32, 0x33, 0x34, 0x35, 0x36, 0x37, 0x38, 0x39] = 0x4B37 := by decide +kernel
theorem test_crc_request : crc16 (goodFrame.take 6) = 0x0BA4 ∧ crc16 goodFrame = 0 := by decide +kernel
theorem test_crc_response : crc16 [0x01, 0x03, 0x06, 0x55, 0x66, 0x77, 0x88, 0x99, 0x00] = 0xB6D4 := by decide +kernel
theorem test_crc_bit : crcBit 0x0000 = 0x0000 ∧ crcBit 0x0001 = 0xA001 ∧ crcBit 0xFFFF = 0xDFFE ∧
    crcBit 0x8000 = 0x4000 ∧ crcBit 0xA001 = 0xF001 ∧ crcBit 0xFFFE = 0x7FFF := by decide
theorem test_crc_byte : crcByte 0xFFFF 0x01 = 0x807E ∧ crcByte 0x807E 0x03 = 0x2140 := by decide
theorem test_crc_table : crcByte 0 0xFE = 0x8081 ∧ crcByte 0 0x80 = 0xA001 ∧ crcByte 0 0x3F = 0x1040 ∧
    crcByte 0 0xC5 = 0x53C0 := by decide
theorem test_verify : verify goodFrame = true ∧ verify badFrame = false ∧
    verify [0x01, 0x03, 0x00, 0x02, 0x00, 0x03, 0x0B, 0xA4] = false ∧
    verify [0x01, 0x03, 0x00, 0x00, 0x00, 0x00, 0x45, 0xCA] = true := by decide +kernel

/-! ### One step of each operation (sections 3 to 5) -/

theorem test_push : after (exec (.rxPush 0x5A) (held [0x10, 0x11, 0x12])) fun s =>
    Memory.read s.buf 3 == some 0x5A && s.len == 4 && !s.err := by decide
theorem test_push_full : after (exec (.rxPush 0x20) { held (List.replicate 32 0x10) with cursor := 4 }) fun s =>
    s.len == 32 && s.err && Memory.read s.buf 31 == some 0x10 && s.events == [.bufferOverflow 0x20] := by decide
theorem test_fault : after (exec .rxFault (held [1, 2, 3, 4, 5])) fun s =>
    status s == (5, 0, 0, true, .idleScan) && s.events == [.lineFault] := by decide
theorem test_poll_error : after (exec .pollStart { held [1, 2, 3, 4, 5, 6, 7, 8, 9] with
      cursor := 3, wait := 1, err := true, st := .haveCandidate }) fun s =>
    status s == (0, 0, 0, false, .idleScan) && s.events == [.errorReset] := by decide
theorem test_poll_short : after (exec .pollStart (held (goodFrame.take 7))) fun s =>
    status s == (7, 0, 0, false, .idleScan) && !s.passActive && s.events == [.shortBuffer] := by decide
theorem test_poll_begins : after (exec .pollStart (held goodFrame)) fun s =>
    status s == (8, 0, 0, false, .idleScan) && s.passActive && s.events == [] := by decide
theorem test_scan_noise : after (exec .scanStep (inPass [2, 3, 0, 2, 0, 3, 0xA4, 0x38] 0)) fun s =>
    status s == (8, 1, 0, false, .idleScan) && s.passActive && s.events == [] := by decide
theorem test_scan_incomplete : after (exec .scanStep (inPass partialBytes 5)) fun s =>
    status s == (8, 5, 1, false, .haveCandidate) && !s.passActive && s.events == [.incomplete 5 1] := by decide
theorem test_scan_stall : after (exec .scanStep { inPass partialBytes 5 with wait := 3, st := .haveCandidate })
    fun s => status s == (0, 0, 0, false, .idleScan) && !s.passActive &&
      s.events == [.stalledPartialFrame 5] := by decide
theorem test_scan_false_match : after (exec .scanStep { inPass (partialBytes ++ [0, 0, 1, 0x84, 0x0B]) 5 with
      wait := 2, st := .haveCandidate }) fun s =>
    status s == (13, 6, 0, false, .idleScan) && s.passActive && s.events == [.checksumMismatch 5] := by decide +kernel
theorem test_scan_unrecognized : after (exec .scanStep (inPass writeFrame 0)) fun s =>
    status s == (8, 1, 0, false, .idleScan) && s.passActive && s.events == [.unrecognizedCommand 0 4] := by decide
theorem test_scan_valid : after (exec .scanStep (inPass goodFrame 0)) fun s =>
    status s == (8, 0, 0, false, .resolved) && !s.passActive && s.events == [.frameValid 0] := by decide +kernel
theorem test_scan_flush : after (exec .scanStep (inPass [2, 3, 0, 2, 0, 3, 0xA4, 0x38] 8)) fun s =>
    status s == (0, 0, 0, false, .idleScan) && !s.passActive && s.events == [.flush 8] := by decide
theorem test_read_resolves : after (exec (.read 2 3 0x0BA4) (inPass goodFrame 0)) fun s =>
    s.st == .resolved && !s.passActive && s.events == [.frameValid 0] := by decide +kernel
theorem test_read_false_match : after (exec (.read 2 3 0x0BA5) (inPass badFrame 0)) fun s =>
    s.cursor == 1 && s.passActive && s.events == [.checksumMismatch 0] := by decide +kernel
theorem test_write_skips : after (exec (.write 2 3 0xCB11) (inPass writeFrame 0)) fun s =>
    s.cursor == 1 && s.passActive && s.events == [.unrecognizedCommand 0 4] := by decide
theorem test_respond : after (exec .respond (resolvedAt goodFrame 0)) fun s =>
    status s == (0, 0, 0, false, .idleScan) &&
    s.outputs == [.tx [0x01, 0x03, 0x06, 0x55, 0x66, 0x77, 0x88, 0x99, 0x00, 0xD4, 0xB6]] &&
    Memory.read s.txbuf 10 == some 0xB6 && s.events == [.responseSent 2 3] := by decide +kernel
theorem test_respond_out_of_range : after (exec .respond (resolvedAt farFrame 0)) fun s =>
    status s == (0, 0, 0, false, .idleScan) && s.outputs == [] && s.events == [.requestOutOfRange 8 3] := by decide
theorem test_range_boundaries : inRange Config.reference 0 10 = true ∧ inRange Config.reference 9 1 = true ∧
    inRange Config.reference 10 0 = true ∧ inRange Config.reference 11 0 = false ∧
    inRange Config.reference 0 11 = false ∧ inRange Config.reference 0xFFFF 2 = false := by decide
theorem test_response_empty : responseFor Config.referenceTable [0x01, 0x03, 0x00, 0x0A, 0x00, 0x00, 0x65, 0xC8] =
    [0x01, 0x03, 0x00, 0x20, 0xF0] := by decide +kernel
theorem test_response_builds : after (exec (.response 6) (resolvedAt goodFrame 0)) fun s =>
    s.st == .resolved && s.outputs ==
      [.tx [0x01, 0x03, 0x06, 0x55, 0x66, 0x77, 0x88, 0x99, 0x00, 0xD4, 0xB6]] := by decide +kernel
theorem test_reset : after (exec .reset { inPass goodFrame 3 with wait := 2, err := true }) fun s =>
    status s == (0, 0, 0, false, .idleScan) && !s.passActive && s.regs == Config.referenceTable &&
    s.buf == [] && s.outputs == [] := by decide
theorem test_crc_init : after (exec .crcInitOp State.reset) fun s => s.crc == 0xFFFF := by decide
theorem test_crc_byte_op : after (exec (.crcByte 0x03) { State.reset with crc := 0x807E }) fun s =>
    s.crc == 0x2140 := by decide

/-! ### The step and the placing of table words -/

theorem test_step_idle : after (step State.reset) fun s => s == State.reset := by decide
theorem test_step_refuses_config :
    step { State.reset with cfg := { Config.reference with cap := 7 } } = .refused .illFormedConfig := by rfl
theorem test_first_word_read : after (step (State.reset.withFetchWord 64 0x010300020003A40B)) fun s =>
    s.st == .resolved && s.events == [.frameValid 0] := by decide +kernel
theorem test_first_word_write : after (step (State.reset.withFetchWord 64 0x0104000000000000)) fun s =>
    s.cursor == 1 && s.events == [.unrecognizedCommand 0 4] := by decide
theorem test_first_word_response : after (step (State.reset.withFetchWord 24 0x010302)) fun s =>
    s.outputs == [.tx [0x01, 0x03, 0x02, 0x11, 0x22, 0x34, 0x0D]] := by decide +kernel
theorem test_first_word_push : after (step (State.reset.withFetchWord 16 0x15A)) fun s =>
    Memory.read s.buf 0 == some 0x5A && s.len == 1 && s.inputs == [] := by decide
theorem test_first_word_respond : after (step (State.reset.withFetchWord 8 0b010)) fun s =>
    s.outputs == [.tx [0x01, 0x03, 0x00, 0x20, 0xF0]] && s.len == 0 := by decide +kernel
/-- Section 3, last row: a push in the cycle of a full reset lands at index 0 (R63 b). -/
theorem test_cycle_flush_then_push :
    cycleInputs ⟨0b01, 0b0101011010, 0, true⟩ (inPass [2, 3, 0, 2, 0, 3, 0xA4, 0x38] 8) =
      [.scanner, .rx 0b0101011010, .crc 0] := by decide
theorem test_cycle_reset_alone : cycleInputs ⟨0b11, 0b0101011010, 0, true⟩ (held goodFrame) = [.ctl 0b11] := by
  decide

/-! ### Witnesses: states and operands that meet the statements' hypotheses -/

theorem witness_inv_idle : (held goodFrame).Inv :=
  ⟨by decide, by decide, by decide, by decide, by decide, by decide, by decide, by decide, by decide, by decide,
   by decide, by decide, by decide⟩

theorem witness_inv_pass : (inPass goodFrame 0).Inv :=
  ⟨by decide, by decide, by decide, by decide, by decide, by decide, by decide, by decide, by decide, by decide,
   by decide, by decide, by decide⟩

theorem witness_inv_resolved : (resolvedAt goodFrame 0).Inv :=
  ⟨by decide, by decide, by decide, by decide, by decide, by decide, by decide, by decide, by decide, by decide,
   by decide, by decide +kernel, by decide⟩

/-- An incomplete candidate observed not yet. -/
def waiting0 : State := { held partialBytes with cursor := 5 }

theorem witness_inv_waiting : waiting0.Inv :=
  ⟨by decide, by decide, by decide, by decide, by decide, by decide, by decide, by decide, by decide, by decide,
   by decide, by decide, by decide⟩

/-- The invariant says nothing of the schedule. -/
theorem inv_of_inputs (s : State) (r : List Input) (h : s.Inv) : State.Inv { s with inputs := r } :=
  ⟨h.cfg_wf, h.table, h.buf_wf, h.buf_bound, h.tx_wf, h.tx_bound, h.committed, h.cursor_le, h.len_le, h.wait_lt,
   h.pass, h.resolved, h.waiting⟩

theorem witness_FrameWordsHaveOneMeaning :
    (∃ w i, decode (.req w) = .ok i) ∧ ∃ h i, decode (.rsp h) = .ok i :=
  ⟨⟨_, _, test_decode_read⟩, ⟨_, _, test_decode_response⟩⟩

theorem witness_StepRunsPortVector : State.reset.cfg.wf = true ∧
    decode (.ctl 0b01#2) = .ok .pollStart ∧ decode (.crc 0b0100000011#10) = .ok (.crcByte 3) ∧
    (decode (.rx 0b0100000011#10) = .ok (.rxPush 3) ∧ rxRest 0b0100000011#10 = none) ∧
    (decode (.rx 0b1100000011#10) = .ok (.rxPush 3) ∧ rxRest 0b1100000011#10 = some 0b1000000011#10) ∧
    ({ State.reset with inputs := [.ctl 0b01#2] } : State).inputs = [.ctl 0b01#2] := by decide

theorem witness_StepRunsScannerOperation :
    ((inPass goodFrame 0).cfg.wf = true ∧ (inPass goodFrame 0).passActive = true ∧
      (inPass goodFrame 0).st ≠ .resolved ∧ (inPass goodFrame 0).inputs = []) ∧
    ((resolvedAt goodFrame 0).passActive = false ∧ (resolvedAt goodFrame 0).st = .resolved ∧
      ({ resolvedAt goodFrame 0 with inputs := [.scanner] } : State).inputs = [.scanner]) := by decide

theorem witness_StepRunsFrameAtCursor :
    (let s := inPass goodFrame 0
     s.cfg.wf = true ∧ s.inputs = [] ∧ s.passActive = true ∧ s.st ≠ .resolved ∧ s.holdsFrame s.cursor goodFrame ∧
      decodeFrame goodFrame = .ok (.read 2 3 0x0BA4)) ∧
    (let s := inPass writeFrame 0
     s.cfg.wf = true ∧ s.inputs = [] ∧ s.passActive = true ∧ s.st ≠ .resolved ∧ s.holdsFrame s.cursor writeFrame ∧
      decodeFrame writeFrame = .ok (.write 2 3 0xCB11)) := by decide

theorem witness_StepRunsResponseThenFullReset :
    (resolvedAt goodFrame 0).cfg.wf = true ∧ (resolvedAt goodFrame 0).inputs = [] ∧
    (resolvedAt goodFrame 0).passActive = false ∧ (resolvedAt goodFrame 0).st = .resolved ∧
    (resolvedAt goodFrame 0).holdsFrame 0 goodFrame ∧
    inRange Config.reference (startOf goodFrame) (countOf goodFrame) = true ∧
    after (exec (.response (byteCountOf (countOf goodFrame))) (resolvedAt goodFrame 0)) (fun _ => true) = true := by
  decide

theorem witness_IdleStepAndIllFormedConfig :
    (State.reset.cfg.wf = true ∧ State.reset.quiescent = true ∧ State.reset.inputs = []) ∧
    ({ State.reset with cfg := { Config.reference with maxWait := 0 } } : State).cfg.wf = false := by decide

theorem witness_ResetWinsItsCycle :
    let c : Cycle := ⟨0b10, 0x15A, 0, true⟩
    let s : State := { State.reset with inputs := [.cycle c] }
    s.cfg.wf = true ∧ s.inputs = [.cycle c] ∧ c.ctl.getLsbD 1 = true := by decide

theorem witness_FullResetBeforeProducerInCycle :
    (let c : Cycle := ⟨0b01, 0b0101011010, 0, true⟩
     let s : State := { inPass [2, 3, 0, 2, 0, 3, 0xA4, 0x38] 8 with inputs := [.cycle c] }
     s.cfg.wf = true ∧ s.inputs = [.cycle c] ∧ c.ctl.getLsbD 1 = false ∧
      decode (.fsm s.fsmVector) = .ok .scanStep ∧ c.scan = true ∧
      after (exec .scanStep { s with inputs := [.rx c.rx, .crc c.crc] })
        (fun t => t.len == 0 && t.cursor == 0 && !t.err) = true ∧ c.rx = 0b01#2 ++ 0x5A#8) ∧
    (let c : Cycle := ⟨0b01, 0b1001011010, 0, true⟩
     let s : State := { held goodFrame with err := true, inputs := [.cycle c] }
     s.cfg.wf = true ∧ s.inputs = [.cycle c] ∧ c.ctl.getLsbD 1 = false ∧
      decode (.fsm s.fsmVector) = .error .noOperation ∧ decode (.ctl c.ctl) = .ok .pollStart ∧
      after (exec .pollStart { s with inputs := [.rx c.rx, .crc c.crc] })
        (fun t => t.len == 0 && t.cursor == 0 && !t.err) = true ∧ c.rx = 0b10#2 ++ 0x5A#8) := by decide

theorem witness_PushBeforeFaultInOneVector :
    let s : State := { held [1] with inputs := [.rx (0b11#2 ++ 0x5A#8)] }
    s.cfg.wf = true ∧ s.inputs = [.rx (0b11#2 ++ 0x5A#8)] ∧ s.len < s.cfg.cap := by decide

theorem witness_EngineOperationsComputeCrc16 :
    State.reset.cfg.wf = true ∧ ({ State.reset with inputs := [.crc 0b1000000000#10, .crc (0b01#2 ++ 1#8)] } : State).inputs
      = .crc 0b1000000000#10 :: [1#8].map (fun b => Input.crc (0b01#2 ++ b)) := by decide

theorem witness_VerifyLengths : goodFrame.length = 8 ∧ (goodFrame.take 6).length = 6 := by decide

theorem witness_RxPush : (held (List.replicate 31 1)).len < (held (List.replicate 31 1)).cfg.cap ∧
    (held (List.replicate 32 1)).cfg.cap ≤ (held (List.replicate 32 1)).len := by decide

theorem witness_FirstCapPushesSucceed : State.reset.cfg.wf = true ∧ State.reset.len = 0 ∧ State.reset.err = false ∧
    ({ State.reset with inputs := pushInputs [1, 2] } : State).inputs = pushInputs [1, 2] := by decide

theorem witness_PollStart :
    (let s : State := { held goodFrame with err := true }
     s.passActive = false ∧ s.st ≠ .resolved ∧ s.err = true) ∧
    (let s := held (goodFrame.take 7)
     s.passActive = false ∧ s.st ≠ .resolved ∧ s.err = false ∧ s.len < 8 ∧ s.cfg.shortWait = false) ∧
    (let s := held goodFrame
     s.passActive = false ∧ s.st ≠ .resolved ∧ s.err = false ∧ 8 ≤ s.len) := by decide

theorem witness_PollWithShortBuffer_shortWait :
    let s : State := { held (goodFrame.take 7) with cfg := { Config.reference with shortWait := true } }
    s.passActive = false ∧ s.st ≠ .resolved ∧ s.err = false ∧ s.len < 8 ∧ s.cfg.shortWait = true ∧
      s.wait + 1 ≠ s.cfg.maxWait ∧ ({ s with wait := 3 } : State).wait + 1 = s.cfg.maxWait := by decide

theorem witness_NotEnabledChangesNothing : (inPass goodFrame 0).passActive = true ∧
    (resolvedAt goodFrame 0).st = .resolved ∧ (held goodFrame).passActive = false ∧ (held goodFrame).st ≠ .resolved := by
  decide

theorem witness_ShortBufferNeverTimesOut :
    let s : State := { held [1, 3, 0, 0, 0] with inputs := List.replicate 6 (.ctl 0b01#2) }
    s.cfg.wf = true ∧ s.passActive = false ∧ s.st ≠ .resolved ∧ s.err = false ∧ s.len < 8 ∧
      s.cfg.shortWait = false := by decide

theorem witness_ScanSkipsNoise : (inPass [2, 3] 1).passActive = true ∧ (inPass [2, 3] 1).cursor < (inPass [2, 3] 1).len ∧
    Memory.read (inPass [2, 3] 1).buf 1 = some 3 ∧ (3 : Byte) ≠ 0x01 := by decide

theorem witness_ScanWaitsOrStalls :
    let s := inPass partialBytes 5
    s.passActive = true ∧ s.cursor < s.len ∧ Memory.read s.buf s.cursor = some 1 ∧ s.len < s.cursor + 8 ∧
      s.wait + 1 ≠ s.cfg.maxWait ∧ ({ s with wait := 3 } : State).wait + 1 = s.cfg.maxWait := by decide

theorem witness_ScanFullCandidate :
    (let s := inPass badFrame 0
     s.passActive = true ∧ s.holdsFrame s.cursor badFrame ∧ byteAt badFrame 0 = 1 ∧ byteAt badFrame 1 = 3 ∧
      verify badFrame = false) ∧
    (let s := inPass writeFrame 0
     s.passActive = true ∧ s.holdsFrame s.cursor writeFrame ∧ byteAt writeFrame 0 = 1 ∧ byteAt writeFrame 1 ≠ 3) ∧
    (let s := inPass goodFrame 0
     s.passActive = true ∧ s.holdsFrame s.cursor goodFrame ∧ byteAt goodFrame 0 = 1 ∧ byteAt goodFrame 1 = 3 ∧
      verify goodFrame = true) := by decide +kernel

theorem witness_ScanFlushesAtEnd : (inPass goodFrame 8).passActive = true ∧ (inPass goodFrame 8).len ≤ 8 := by decide

theorem witness_ReadCommandVerifiesChecksum : (inPass goodFrame 0).passActive = true ∧
    crc16 [0x01, 0x03, hi 2, lo 2, hi 3, lo 3] = 0x0BA4 ∧ crc16 [0x01, 0x03, hi 2, lo 2, hi 3, lo 3] ≠ 0x0BA5 := by
  decide +kernel

theorem witness_Respond :
    (let s := resolvedAt goodFrame 0
     s.cfg.wf = true ∧ s.regs = s.cfg.regInit ∧ s.st = .resolved ∧ s.holdsFrame s.cursor goodFrame ∧
      (startOf goodFrame).toNat + (countOf goodFrame).toNat ≤ s.cfg.tableSize ∧ byteCountOf (countOf goodFrame) = 6) ∧
    (let s := resolvedAt farFrame 0
     s.st = .resolved ∧ s.holdsFrame s.cursor farFrame ∧
      s.cfg.tableSize < (startOf farFrame).toNat + (countOf farFrame).toNat ∧ s.cfg.bounds = .drop ∧
      ({ s with cfg := { Config.reference with bounds := .refuse } } : State).cfg.bounds = .refuse) := by decide

theorem witness_ResponseLayout :
    (startOf goodFrame).toNat + (countOf goodFrame).toNat ≤ State.reset.regs.length ∧
    (2 < (countOf goodFrame).toNat ∧ State.reset.regs[(startOf goodFrame).toNat + 2]? = some 0x9900) ∧
    Config.reference.wf = true ∧ inRange Config.reference (startOf goodFrame) (countOf goodFrame) = true := by decide

theorem witness_StaleBytesAreNeverObserved :
    agreeBelow (held goodFrame).buf ((held goodFrame).buf ++ [(8, 0x77)]) (held goodFrame).len ∧
    after (step (held goodFrame)) (fun _ => true) = true := by decide

theorem witness_StepAnswers : (inPass goodFrame 0).Inv ∧ (inPass goodFrame 0).passActive = true ∧
    after (step (inPass goodFrame 0)) (fun t => decide (t.len = 8)) = true :=
  ⟨witness_inv_pass, by decide, by decide +kernel⟩

theorem witness_OnlyValidReadsAreAnswered : (resolvedAt goodFrame 0).Inv ∧
    after (step (resolvedAt goodFrame 0)) (fun t => decide (t.outputs.length = 1)) = true :=
  ⟨witness_inv_resolved, by decide +kernel⟩

theorem witness_ExecAnswers :
    (Instr.rxFault.agent = .rx ∧ after (exec .rxFault { held [1] with err := true }) (fun t => t.err) = true) ∧
    (Instr.pollStart.agent = .scn ∧ after (exec .pollStart (held [1])) (fun t => !t.err) = true) := by decide

theorem witness_PassReachesQuiescence :
    let s : State := { inPass goodFrame 0 with inputs := List.replicate 34 .scanner ++ [.rx 0x15A] }
    s.Inv ∧ s.cfg.bounds = .drop ∧ (∀ x ∈ s.inputs, x.duringPass = true) ∧ s.cfg.cap + 2 ≤ scannerTurns s.inputs :=
  ⟨inv_of_inputs _ _ witness_inv_pass, by decide, by decide, by decide⟩

theorem witness_PollComputesWholePass :
    let s : State := { held goodFrame with inputs := [.ctl 0b01#2] }
    s.Inv ∧ s.cfg.bounds = .drop ∧ s.cfg.shortWait = false ∧ s.quiescent = true ∧ s.inputs = [.ctl 0b01#2] :=
  ⟨inv_of_inputs _ _ witness_inv_idle, by decide, by decide, by decide, by decide⟩

theorem witness_inv_two_frames : (held (0x7E :: badFrame ++ goodFrame)).Inv :=
  ⟨by decide, by decide, by decide, by decide, by decide, by decide, by decide, by decide, by decide, by decide,
   by decide, by decide, by decide⟩

theorem witness_PassFindsFirstValidFrame :
    let l : List Input := .rx 0b1101011010 :: List.replicate 10 .scanner
    let s : State := { held (0x7E :: badFrame ++ goodFrame) with inputs := .ctl 0b01#2 :: l }
    s.Inv ∧ s.quiescent = true ∧ s.err = false ∧ s.inputs = .ctl 0b01#2 :: l ∧
      (∀ x ∈ l, x.duringPass = true) ∧ 9 - s.cursor + 1 ≤ scannerTurns l ∧
      s.cursor ≤ 9 ∧ s.validAt 9 = true ∧ ∀ q, q < 9 → s.cursor ≤ q → s.validAt q = false :=
  ⟨inv_of_inputs _ _ witness_inv_two_frames, by decide +kernel⟩

theorem witness_StallTimeoutAfterMaxWait :
    let s : State := { waiting0 with inputs := observeInputs 4 }
    s.Inv ∧ s.quiescent = true ∧ s.err = false ∧ 8 ≤ s.len ∧ s.wait = 0 ∧ s.cursor < s.len ∧ s.len < s.cursor + 8 ∧
      Memory.read s.buf s.cursor = some 0x01 ∧ 4 ≤ s.cfg.maxWait :=
  ⟨inv_of_inputs _ _ witness_inv_waiting, by decide, by decide, by decide, by decide, by decide, by decide, by decide,
   by decide⟩

/-- P3: three bytes of `REQ(03, 0, 1)` behind noise, two observations, then the other five. -/
theorem witness_LateCompletionResolves :
    let s : State := { waiting0 with
      inputs := observeInputs 2 ++ pushInputs [0x00, 0x00, 0x01, 0x84, 0x0A] ++ observeInputs 1 }
    s.Inv ∧ s.quiescent = true ∧ s.err = false ∧ 8 ≤ s.len ∧ s.wait = 0 ∧ s.cursor + 3 = s.len ∧
      readCells s.buf s.cursor 3 = .ok [0x01, 0x03, 0x00] ∧
      validFrame (([0x01, 0x03, 0x00] ++ [0x00, 0x00, 0x01, 0x84, 0x0A] : List Byte).take 8) = true ∧
      s.len + 5 ≤ s.cfg.cap ∧ 2 < s.cfg.maxWait :=
  ⟨inv_of_inputs _ _ witness_inv_waiting, by decide, by decide, by decide, by decide, by decide, by decide, by decide +kernel,
   by decide, by decide⟩

end Sys2Proof.Tests
end

section
/-! The step as equations: the configuration check, the empty schedule, a word that selects no operation. -/

namespace Sys2Proof.Machine

open Sys2Proof

/-- Under a well-formed configuration a step is one atomic operation (20_memory.md R60). -/
theorem step_of_wf (s : State) (h : s.cfg.wf = true) : step s = stepInput s := if_pos h

/-- No step runs under parameters outside R6's constraints (93_implementation_defined.md U7). -/
theorem step_of_illFormed (s : State) (h : s.cfg.wf = false) : step s = .refused .illFormedConfig := by
  simp [step, h]

/-- With an empty schedule the scanner takes the turn (30_encoding.md R94; log 4). -/
theorem stepInput_of_inputs_nil (s : State) (h : s.inputs = []) : stepInput s = runScanner s := by
  simp [stepInput, h]

/-- A word that selects no operation leaves the state as it is (R93 to R95). -/
theorem runWord_of_decode_error (w : PortWord) (s : State) (e : Reject) (h : decode w = .error e) :
    runWord w s = .next s := by
  simp [runWord, h]

/-- The scanner of a quiescent block has nothing to do (70_reset_and_hazards.md R254). -/
theorem runScanner_of_quiescent (s : State) (h : s.quiescent = true) : runScanner s = .next s := by
  obtain ⟨hpass, hst⟩ := (quiescent_iff s).1 h
  exact runWord_of_decode_error _ s _ (decode_fsm_quiescent s hpass hst)

/-- Settles O9: the step of an empty schedule is the scanner's turn, whose vector selects nothing in a quiescent
block; the configuration check comes before everything else. -/
theorem idleStepAndIllFormedConfig : Obligations.IdleStepAndIllFormedConfig := by
  refine fun s => ⟨fun hwf hquiet hnone => ?_, step_of_illFormed s⟩
  calc step s = stepInput s := step_of_wf s hwf
    _ = runScanner s := stepInput_of_inputs_nil s hnone
    _ = .next s := runScanner_of_quiescent s hquiet

end Sys2Proof.Machine
end

section
/-! The rules of 10_state.md on single states: the reset state, and that every step keeps the session invariant (R31). One
lemma says for each update of the state when the invariant survives it. -/

namespace Sys2Proof.Machine

open Sys2Proof

/-! ### The state after reset -/

/-- Settles O13: R32's values, field by field. -/
theorem resetStateHoldsSpecValues : Obligations.ResetStateHoldsSpecValues :=
  fun _ => ⟨rfl, rfl, rfl, rfl, rfl, rfl, rfl⟩

/-- The constraints of R6, one by one. -/
theorem Config.wf_iff (c : Config) :
    c.wf = true ↔ 8 ≤ c.cap ∧ 1 ≤ c.maxWait ∧ 5 + 2 * c.tableSize ≤ c.txCap ∧ c.tableSize ≤ 127 := by
  simp [Config.wf, and_assoc]

/-- Settles O44: nothing is committed, nothing waits and no pass runs. -/
theorem resetMeetsInvariant : Obligations.ResetMeetsInvariant := by
  intro c hwf
  obtain ⟨-, hwait, -, -⟩ := (Config.wf_iff c).1 hwf
  exact {
    cfg_wf := hwf
    table := rfl
    buf_wf := .nil
    buf_bound := by simp
    tx_wf := .nil
    tx_bound := by simp
    committed := by simp
    cursor_le := Nat.le_refl 0
    len_le := Nat.zero_le _
    wait_lt := hwait
    pass := by simp
    resolved := by simp
    waiting := by simp }

/-- Settles O14: a `RESET` is `FULL_RESET()` on a state whose memories are forgotten, after at most one record on the
output stream. -/
theorem resetCompletes : Obligations.ResetCompletes := by
  refine fun s => ⟨(cutResponse s).forget.fullReset, rfl, rfl, rfl, rfl, rfl, rfl, rfl, ?_⟩
  rcases cutResponse_cases s with hcut | ⟨r, hr, hcut⟩ <;> rw [hcut]
  · exact ⟨rfl, rfl, rfl, rfl, .inl rfl⟩
  · exact ⟨rfl, rfl, rfl, rfl, .inr ⟨(pendingResponse_some s r hr).1, r, hr, _, rfl⟩⟩

/-! ### Frames in the buffer -/

/-- A valid frame is at `p` exactly when the buffer holds one there (42_frame_scanner.md R167). -/
theorem validAt_iff (s : State) (p : Nat) :
    s.validAt p = true ↔ ∃ f, s.holdsFrame p f ∧ validFrame f = true := by
  constructor
  · intro h
    unfold State.validAt at h
    split at h
    · rename_i f hf; exact ⟨f, holdsFrame_of_memRead s p f hf, h⟩
    · cases h
  · rintro ⟨f, hf, hv⟩
    simp only [State.validAt, memRead_of_holdsFrame s p f hf, hv]

/-- An append writes above every frame already held. -/
theorem validAt_appendByte (s : State) (p : Nat) (b : Byte) (h : s.validAt p = true) :
    (s.appendByte b).validAt p = true := by
  obtain ⟨f, ⟨hlen, hle, hcells⟩, hv⟩ := (validAt_iff s p).1 h
  refine (validAt_iff _ p).2 ⟨f, ⟨hlen, Nat.le_succ_of_le hle, fun k hk => ?_⟩, hv⟩
  exact (Memory.read_write_other s.buf s.len (p + k) b (by omega)).trans (hcells k hk)

/-- A full candidate with the device's byte, the read command and a right checksum is a valid frame at the cursor
(R160). -/
theorem validAt_of_candidate (s : State) (f : List Byte) (hf : frameAtCursor s = .ok f)
    (hdev : Memory.read s.buf s.cursor = some deviceId) (hcmd : byteAt f 1 = cmdRead) (hver : verify f = true) :
    s.validAt s.cursor = true := by
  have hholds := holdsFrame_of_memRead s s.cursor f hf
  have ⟨_, _, hcells⟩ := hholds
  have hfirst : byteAt f 0 = deviceId :=
    Option.some.inj ((hcells 0 (by decide)).symm.trans hdev)
  exact (validAt_iff s s.cursor).2 ⟨f, hholds, by simp [validFrame, hfirst, hcmd, hver]⟩

/-! ### The invariant under each update of the state -/

section Inv

variable {s : State} (h : s.Inv)
include h

theorem State.Inv.maxWait_pos : 0 < s.cfg.maxWait := Nat.zero_lt_of_lt h.wait_lt

theorem State.Inv.withInputs (r : List Input) : (s.withInputs r).Inv := { h with }

theorem State.Inv.raise (e : Event) : (s.raise e).Inv := { h with }

theorem State.Inv.setErr : s.setErr.Inv := { h with }

theorem State.Inv.useEngine : s.useEngine.Inv := { h with }

theorem State.Inv.withCrc (v : Word) : State.Inv { s with crc := v } := { h with }

/-- `FULL_RESET()` leaves an idle session with nothing committed (42_frame_scanner.md R162). -/
theorem State.Inv.fullReset : s.fullReset.Inv :=
  { h with
    committed := by simp
    cursor_le := Nat.le_refl 0
    len_le := Nat.zero_le _
    wait_lt := h.maxWait_pos
    pass := by simp
    resolved := by simp
    waiting := by simp }

/-- `RESET` also empties both memories (70_reset_and_hazards.md R250). -/
theorem State.Inv.forget_fullReset : s.forget.fullReset.Inv :=
  { h.fullReset with
    buf_wf := .nil
    buf_bound := by simp
    tx_wf := .nil
    tx_bound := by simp
    committed := by simp
    resolved := by simp
    waiting := by simp }

/-- An append below capacity (41_intake_fifo.md R130). -/
theorem State.Inv.appendByte (b : Byte) (hlt : s.len < s.cfg.cap) : (s.appendByte b).Inv :=
  have hkeep : ∀ i, i < s.len → Memory.read (s.appendByte b).buf i = Memory.read s.buf i := fun i hi =>
    Memory.read_write_other s.buf s.len i b (Nat.ne_of_lt hi)
  { h with
    buf_wf := Memory.write_wf _ _ _ h.buf_wf
    buf_bound := fun p hp => by
      rcases Memory.mem_write _ _ _ p hp with rfl | hp
      · exact hlt
      · exact h.buf_bound p hp
    committed := fun i hi => by
      rcases Nat.lt_succ_iff_lt_or_eq.1 hi with hi | rfl
      · rw [hkeep i hi]; exact h.committed i hi
      · simp
    cursor_le := Nat.le_succ_of_le h.cursor_le
    len_le := hlt
    pass := fun hp => (h.pass hp).imp_right Nat.le_succ_of_le
    resolved := fun hst => validAt_appendByte s s.cursor b (h.resolved hst)
    waiting := fun hst hp => (h.waiting hst hp).imp_right fun hcand hsw => by
      obtain ⟨hcur, hdev⟩ := hcand hsw
      exact ⟨Nat.lt_succ_of_lt hcur, (hkeep _ hcur).trans hdev⟩ }

/-- A pass begins on an unresolved session with a frame's worth of bytes (42_frame_scanner.md R150). -/
theorem State.Inv.beginPass (hst : s.st ≠ .resolved) (hlen : frameLen ≤ s.len) : s.beginPass.Inv :=
  { h with pass := fun _ => ⟨hst, hlen⟩, waiting := by simp }

/-- The cursor moves past a committed byte (R154, R158, R159). -/
theorem State.Inv.advance (hlt : s.cursor < s.len) : s.advance.Inv :=
  { h with
    cursor_le := hlt
    wait_lt := h.maxWait_pos
    pass := fun hp => ⟨by simp, (h.pass hp).2⟩
    resolved := by simp
    waiting := by simp }

/-- A valid frame at the cursor is resolved (R160). -/
theorem State.Inv.resolve (hvalid : s.validAt s.cursor = true) : s.resolve.Inv :=
  { h with pass := by simp, resolved := fun _ => hvalid, waiting := by simp }

/-- An incomplete observation waits below `MAX_WAIT` or resets (R157); under `SHORT_WAIT = 0` it is one of a candidate
at the cursor. -/
theorem State.Inv.incompleteObservation (hcand : s.cfg.shortWait = false →
    s.cursor < s.len ∧ Memory.read s.buf s.cursor = some deviceId) : (incompleteObservation s).Inv := by
  by_cases hw : s.wait + 1 = s.cfg.maxWait
  · rw [incompleteObservation_stall s hw]
    exact (h.raise _).fullReset
  · rw [incompleteObservation_wait s hw]
    have hkeep : s.keepWaiting.Inv :=
      { h with
        wait_lt := Nat.lt_of_le_of_ne h.wait_lt hw
        pass := by simp
        resolved := by simp
        waiting := fun _ _ => ⟨Nat.le_add_left 1 s.wait, hcand⟩ }
    exact hkeep.raise _

/-- A response that fits the staging buffer is staged inside it (10_state.md R29). -/
theorem State.Inv.handOver (f body : List Byte) (hfit : (withChecksum body).length ≤ s.cfg.txCap) :
    (handOver f body s).Inv :=
  { h with
    tx_wf := Memory.writeAll_wf _ _ _ h.tx_wf
    tx_bound := fun p hp => by
      rcases Memory.mem_writeAll _ _ _ p hp with ⟨-, hp⟩ | hp
      · exact Nat.lt_of_lt_of_le (by simpa using hp) hfit
      · exact h.tx_bound p hp }

/-- A full candidate at the cursor resolves to a valid frame or is skipped (42_frame_scanner.md R158 to R160). -/
theorem State.Inv.fullCandidate (f : List Byte) (hf : frameAtCursor s = .ok f) (hlt : s.cursor < s.len)
    (hdev : Memory.read s.buf s.cursor = some deviceId) : (fullCandidate f s).Inv := by
  rcases fullCandidate_cases f s with ⟨hcmd, hver, ht⟩ | ⟨-, -, ht⟩ | ⟨-, ht⟩ <;> rw [ht]
  · exact (h.useEngine.resolve (validAt_of_candidate s f hf hdev hcmd hver)).raise _
  · exact (h.useEngine.raise _).advance hlt
  · exact (h.raise _).advance hlt

end Inv

/-! ### The invariant under each operation -/

theorem execReset_keeps_inv (s t : State) (h : s.Inv) (hx : execReset s = .next t) : t.Inv := by
  rcases execReset_next s t hx with rfl | ⟨r, -, rfl⟩
  · exact h.forget_fullReset
  · have hemit : (s.emit (.txCut (r.take (Config.freeCut s.draws)))).Inv := { h with }
    exact hemit.forget_fullReset

theorem execRxPush_keeps_inv (b : Byte) (s t : State) (h : s.Inv) (hx : execRxPush b s = .next t) : t.Inv := by
  rcases execRxPush_next b s t hx with ⟨hlt, rfl⟩ | ⟨-, rfl⟩
  · exact h.appendByte b hlt
  · exact h.setErr.raise _

theorem execPollStart_keeps_inv (s t : State) (h : s.Inv) (hx : execPollStart s = .next t) : t.Inv := by
  rcases execPollStart_next s t hx with
    ⟨-, rfl⟩ | ⟨-, -, rfl⟩ | ⟨-, -, -, hsw, rfl⟩ | ⟨-, -, -, -, rfl⟩ | ⟨hq, -, hlen, rfl⟩
  · exact h
  · exact (h.raise _).fullReset
  · exact h.incompleteObservation fun hsw' => absurd (hsw'.symm.trans hsw) (by decide)
  · exact h.raise _
  · exact h.beginPass ((quiescent_iff s).1 hq).2 hlen

theorem execScanStep_keeps_inv (s t : State) (h : s.Inv) (hx : execScanStep s = .next t) : t.Inv := by
  rcases execScanStep_next s t hx with ⟨-, rfl⟩ | ⟨-, -, rfl⟩ | ⟨-, hlt, b, hb, hcase⟩
  · exact h
  · exact (h.raise _).fullReset
  · rcases hcase with ⟨-, rfl⟩ | ⟨rfl, -, rfl⟩ | ⟨rfl, f, hf, rfl⟩
    · exact h.advance hlt
    · exact h.incompleteObservation fun _ => ⟨hlt, hb⟩
    · exact h.fullCandidate f hf hlt hb

theorem execRespond_keeps_inv (s t : State) (h : s.Inv) (hx : execRespond s = .next t) : t.Inv := by
  rcases execRespond_next s t hx with ⟨-, rfl⟩ | ⟨-, f, -, hcase⟩
  · exact h
  · rcases hcase with ⟨-, body, -, hfit, rfl⟩ | ⟨-, -, rfl⟩
    · exact (h.handOver f body hfit).fullReset
    · exact (h.raise _).fullReset

theorem StepCase.keeps_inv {s t : State} (hcase : StepCase s t) (h : s.Inv) : t.Inv := by
  cases hcase with
  | idle ht => exact ht ▸ h
  | reset hx => exact execReset_keeps_inv s t h hx
  | poll hx => exact execPollStart_keeps_inv s t h hx
  | push b hx => exact execRxPush_keeps_inv b s t h hx
  | fault hx => cases hx; exact h.setErr.raise _
  | scan _ _ hx => exact execScanStep_keeps_inv s t h hx
  | respond _ _ hx => exact execRespond_keeps_inv s t h hx
  | crcInit hx => cases hx; exact h.withCrc _
  | crcByte b hx => cases hx; exact h.withCrc _

/-- Settles O45: the invariant says nothing of the schedule, and whatever operation the step runs keeps it. -/
theorem stepKeepsInvariant : Obligations.StepKeepsInvariant := by
  intro s t h hstep
  obtain ⟨-, r, hcase⟩ := step_next s t hstep
  exact hcase.keeps_inv (h.withInputs r)

/-! ### Progress of a pass -/

/-- Every committed range can be read. -/
theorem State.Inv.memRead_exists {s : State} (h : s.Inv) (a n : Nat) (hle : a + n ≤ s.len) :
    ∃ bs, memRead s a n = .ok bs := by
  obtain ⟨bs, hbs⟩ := readCells_exists s.buf a n fun k hk => h.committed (a + k) (by omega)
  exact ⟨bs, (if_pos hle).trans hbs⟩

/-- `SCAN_STEP` reads only committed bytes, so it never faults (20_memory.md R55). -/
theorem execScanStep_answers (s : State) (h : s.Inv) : ∃ t, execScanStep s = .next t := by
  unfold execScanStep
  split
  · split
    · exact ⟨_, rfl⟩
    · rename_i hlt
      have hlt : s.cursor < s.len := Nat.lt_of_not_le hlt
      obtain ⟨b, hb⟩ := Option.isSome_iff_exists.1 (h.committed s.cursor hlt)
      simp only [bufRead_of_cell s s.cursor b hlt hb]
      split
      · exact ⟨_, rfl⟩
      · split
        · exact ⟨_, rfl⟩
        · rename_i hfull
          obtain ⟨f, hf⟩ := h.memRead_exists s.cursor frameLen (Nat.le_of_not_lt hfull)
          exact ⟨fullCandidate f s, by simp only [frameAtCursor, hf]⟩
  · exact ⟨s, rfl⟩

/-- An incomplete observation ends the pass, waiting or not (42_frame_scanner.md R157). -/
theorem incompleteObservation_passActive (s : State) : (incompleteObservation s).passActive = false := by
  unfold incompleteObservation
  split <;> rfl

/-- Settles O53: the step flushes, waits, stalls or resolves, which ends the pass, or it advances. -/
theorem scanStepEndsPassOrAdvances : Obligations.ScanStepEndsPassOrAdvances := by
  intro s h hpass
  obtain ⟨t, ht⟩ := execScanStep_answers s h
  refine ⟨t, ht, ?_⟩
  rcases execScanStep_next s t ht with ⟨hidle, -⟩ | ⟨-, -, rfl⟩ | ⟨-, -, b, -, hcase⟩
  · exact absurd (hpass.symm.trans hidle) (by decide)
  · exact .inl rfl
  · rcases hcase with ⟨-, rfl⟩ | ⟨-, -, rfl⟩ | ⟨-, f, -, rfl⟩
    · exact .inr ⟨hpass, rfl, rfl⟩
    · exact .inl (incompleteObservation_passActive s)
    · rcases fullCandidate_cases f s with ⟨-, -, hc⟩ | ⟨-, -, hc⟩ | ⟨-, hc⟩ <;> rw [hc]
      · exact .inl rfl
      · exact .inr ⟨hpass, rfl, rfl⟩
      · exact .inr ⟨hpass, rfl, rfl⟩

end Sys2Proof.Machine
end

section
/-! Who writes what (10_state.md R33): the frame of the producer's and of the consumer's operations, and what follows from
it for every step. -/

namespace Sys2Proof.Machine

open Sys2Proof

/-- What every operation of the producer leaves alone, and how it moves what it writes (R33, R65, R139). -/
structure ProducerFrame (s t : State) : Prop where
  cfg        : t.cfg = s.cfg
  regs       : t.regs = s.regs
  inputs     : t.inputs = s.inputs
  cursor     : t.cursor = s.cursor
  wait       : t.wait = s.wait
  st         : t.st = s.st
  passActive : t.passActive = s.passActive
  crc        : t.crc = s.crc
  txbuf      : t.txbuf = s.txbuf
  outputs    : t.outputs = s.outputs
  err        : s.err = true → t.err = true
  len        : t.len = s.len ∨ t.len = s.len + 1
  cells      : ∀ a, a ≠ s.len → Memory.read t.buf a = Memory.read s.buf a

/-- What every operation of the scanner leaves alone, and how it moves what it writes (R33, R65). -/
structure ConsumerFrame (s t : State) : Prop where
  cfg    : t.cfg = s.cfg
  regs   : t.regs = s.regs
  inputs : t.inputs = s.inputs
  buf    : t.buf = s.buf
  len    : t.len = s.len ∨ t.len = 0
  err    : s.err = false → t.err = false
  cursor : t.cursor = s.cursor ∨ t.cursor = s.cursor + 1 ∨ t.cursor = 0

/-! ### The producer -/

theorem setErr_raise_producerFrame (s : State) (e : Event) : ProducerFrame s (s.setErr.raise e) :=
  ⟨rfl, rfl, rfl, rfl, rfl, rfl, rfl, rfl, rfl, rfl, fun _ => rfl, .inl rfl, fun _ _ => rfl⟩

theorem appendByte_producerFrame (s : State) (b : Byte) : ProducerFrame s (s.appendByte b) :=
  ⟨rfl, rfl, rfl, rfl, rfl, rfl, rfl, rfl, rfl, rfl, id, .inr rfl,
    fun a ha => Memory.read_write_other s.buf s.len a b ha⟩

theorem execRxPush_producerFrame (b : Byte) (s t : State) (h : execRxPush b s = .next t) : ProducerFrame s t := by
  rcases execRxPush_next b s t h with ⟨-, rfl⟩ | ⟨-, rfl⟩
  · exact appendByte_producerFrame s b
  · exact setErr_raise_producerFrame s _

/-! ### The consumer -/

/-- A full reset clears what the consumer may clear, whatever the operation did before it. -/
theorem ConsumerFrame.fullReset {s t : State} (h : ConsumerFrame s t) : ConsumerFrame s t.fullReset :=
  ⟨h.cfg, h.regs, h.inputs, h.buf, .inr rfl, fun _ => rfl, .inr (.inr rfl)⟩

theorem ConsumerFrame.refl (s : State) : ConsumerFrame s s :=
  ⟨rfl, rfl, rfl, rfl, .inl rfl, id, .inl rfl⟩

theorem raise_consumerFrame (s : State) (e : Event) : ConsumerFrame s (s.raise e) :=
  ⟨rfl, rfl, rfl, rfl, .inl rfl, id, .inl rfl⟩

theorem beginPass_consumerFrame (s : State) : ConsumerFrame s s.beginPass :=
  ⟨rfl, rfl, rfl, rfl, .inl rfl, id, .inl rfl⟩

theorem advance_consumerFrame (s : State) : ConsumerFrame s s.advance :=
  ⟨rfl, rfl, rfl, rfl, .inl rfl, id, .inr (.inl rfl)⟩

theorem withCrc_consumerFrame (s : State) (v : Word) : ConsumerFrame s { s with crc := v } :=
  ⟨rfl, rfl, rfl, rfl, .inl rfl, id, .inl rfl⟩

theorem handOver_consumerFrame (f body : List Byte) (s : State) : ConsumerFrame s (handOver f body s) :=
  ⟨rfl, rfl, rfl, rfl, .inl rfl, id, .inl rfl⟩

theorem incompleteObservation_consumerFrame (s : State) : ConsumerFrame s (incompleteObservation s) := by
  unfold incompleteObservation
  split
  · exact (raise_consumerFrame s _).fullReset
  · exact ⟨rfl, rfl, rfl, rfl, .inl rfl, id, .inl rfl⟩

theorem readCandidate_consumerFrame (f : List Byte) (s : State) : ConsumerFrame s (readCandidate f s) := by
  cases hv : verify f
  · rw [readCandidate_invalid f s hv]
    exact ⟨rfl, rfl, rfl, rfl, .inl rfl, id, .inr (.inl rfl)⟩
  · rw [readCandidate_valid f s hv]
    exact ⟨rfl, rfl, rfl, rfl, .inl rfl, id, .inl rfl⟩

theorem skipCandidate_consumerFrame (c : Byte) (s : State) : ConsumerFrame s (skipCandidate c s) :=
  ⟨rfl, rfl, rfl, rfl, .inl rfl, id, .inr (.inl rfl)⟩

theorem fullCandidate_consumerFrame (f : List Byte) (s : State) : ConsumerFrame s (fullCandidate f s) := by
  unfold fullCandidate
  split
  · exact readCandidate_consumerFrame f s
  · exact skipCandidate_consumerFrame _ s

theorem execPollStart_consumerFrame (s t : State) (h : execPollStart s = .next t) : ConsumerFrame s t := by
  rcases execPollStart_next s t h with
    ⟨-, rfl⟩ | ⟨-, -, rfl⟩ | ⟨-, -, -, -, rfl⟩ | ⟨-, -, -, -, rfl⟩ | ⟨-, -, -, rfl⟩
  · exact .refl t
  · exact (raise_consumerFrame s _).fullReset
  · exact incompleteObservation_consumerFrame s
  · exact raise_consumerFrame s _
  · exact beginPass_consumerFrame s

theorem execScanStep_consumerFrame (s t : State) (h : execScanStep s = .next t) : ConsumerFrame s t := by
  rcases execScanStep_next s t h with ⟨-, rfl⟩ | ⟨-, -, rfl⟩ | ⟨-, -, b, -, hcase⟩
  · exact .refl t
  · exact (raise_consumerFrame s _).fullReset
  · rcases hcase with ⟨-, rfl⟩ | ⟨-, -, rfl⟩ | ⟨-, f, -, rfl⟩
    · exact advance_consumerFrame s
    · exact incompleteObservation_consumerFrame s
    · exact fullCandidate_consumerFrame f s

theorem execRespond_consumerFrame (s t : State) (h : execRespond s = .next t) : ConsumerFrame s t := by
  rcases execRespond_next s t h with ⟨-, rfl⟩ | ⟨-, f, -, ⟨-, body, -, -, rfl⟩ | ⟨-, -, rfl⟩⟩
  · exact .refl t
  · exact (handOver_consumerFrame f body s).fullReset
  · exact (raise_consumerFrame s _).fullReset

theorem execResponse_consumerFrame (n : Byte) (s t : State) (h : execResponse n s = .next t) :
    ConsumerFrame s t := by
  rcases execResponse_next n s t h with rfl | ⟨-, f, body, -, -, -, -, -, rfl⟩
  · exact .refl t
  · exact handOver_consumerFrame f body s

theorem execRead_consumerFrame (start count checksum : Word) (s t : State)
    (h : execRead start count checksum s = .next t) : ConsumerFrame s t := by
  unfold execRead at h
  split at h <;> cases h
  · exact readCandidate_consumerFrame _ s
  · exact .refl s

theorem execWrite_consumerFrame (start count checksum : Word) (s t : State)
    (h : execWrite start count checksum s = .next t) : ConsumerFrame s t := by
  unfold execWrite at h
  split at h <;> cases h
  · exact skipCandidate_consumerFrame _ s
  · exact .refl s

/-! ### Every instruction and every step -/

/-- The frame of an instruction is its agent's; `RESET` alone is the host's (00_scope.md R8). -/
theorem exec_frame (i : Instr) (s t : State) (h : exec i s = .next t) :
    (i.agent = .rx ∧ ProducerFrame s t) ∨ (i.agent = .scn ∧ ConsumerFrame s t) ∨
      (i.agent = .host ∧ execReset s = .next t) := by
  cases i with
  | read start count checksum => exact .inr (.inl ⟨rfl, execRead_consumerFrame start count checksum s t h⟩)
  | write start count checksum => exact .inr (.inl ⟨rfl, execWrite_consumerFrame start count checksum s t h⟩)
  | response n => exact .inr (.inl ⟨rfl, execResponse_consumerFrame n s t h⟩)
  | reset => exact .inr (.inr ⟨rfl, h⟩)
  | pollStart => exact .inr (.inl ⟨rfl, execPollStart_consumerFrame s t h⟩)
  | rxPush d => exact .inl ⟨rfl, execRxPush_producerFrame d s t h⟩
  | rxFault => cases h; exact .inl ⟨rfl, setErr_raise_producerFrame s _⟩
  | scanStep => exact .inr (.inl ⟨rfl, execScanStep_consumerFrame s t h⟩)
  | respond => exact .inr (.inl ⟨rfl, execRespond_consumerFrame s t h⟩)
  | crcInitOp => cases h; exact .inr (.inl ⟨rfl, withCrc_consumerFrame s _⟩)
  | crcByte d => cases h; exact .inr (.inl ⟨rfl, withCrc_consumerFrame s _⟩)

/-- What `RESET` leaves alone, and the buffer emptied (70_reset_and_hazards.md R250). -/
theorem execReset_frame (s t : State) (h : execReset s = .next t) :
    t.regs = s.regs ∧ t.cfg = s.cfg ∧ t.inputs = s.inputs ∧ t.len = 0 := by
  rcases execReset_next s t h with rfl | ⟨r, -, rfl⟩
  · exact ⟨rfl, rfl, rfl, rfl⟩
  · exact ⟨rfl, rfl, rfl, rfl⟩

theorem exec_keeps_table (i : Instr) (s t : State) (h : exec i s = .next t) : t.regs = s.regs ∧ t.cfg = s.cfg := by
  rcases exec_frame i s t h with ⟨-, hf⟩ | ⟨-, hf⟩ | ⟨-, hx⟩
  · exact ⟨hf.regs, hf.cfg⟩
  · exact ⟨hf.regs, hf.cfg⟩
  · obtain ⟨hregs, hcfg, -, -⟩ := execReset_frame s t hx
    exact ⟨hregs, hcfg⟩

theorem exec_keeps_committed (i : Instr) (s t : State) (h : exec i s = .next t) :
    t.len = 0 ∨ (s.len ≤ t.len ∧ agreeBelow t.buf s.buf s.len) := by
  rcases exec_frame i s t h with ⟨-, hf⟩ | ⟨-, hf⟩ | ⟨-, hx⟩
  · have hlen : s.len ≤ t.len := by have := hf.len; omega
    exact .inr ⟨hlen, fun i hi => hf.cells i (Nat.ne_of_lt hi)⟩
  · rcases hf.len with hlen | hlen
    · exact .inr ⟨hlen.ge, fun i _ => by rw [hf.buf]⟩
    · exact .inl hlen
  · obtain ⟨-, -, -, hlen⟩ := execReset_frame s t hx
    exact .inl hlen

/-- A step moves the schedule on and then does nothing or one instruction (20_memory.md R60). -/
theorem step_idle_or_exec (s t : State) (h : step s = .next t) :
    ∃ r, t = s.withInputs r ∨ ∃ i, exec i (s.withInputs r) = .next t := by
  obtain ⟨-, r, hcase⟩ := step_next s t h
  refine ⟨r, ?_⟩
  cases hcase with
  | idle ht => exact .inl ht
  | reset hx => exact .inr ⟨.reset, hx⟩
  | poll hx => exact .inr ⟨.pollStart, hx⟩
  | push b hx => exact .inr ⟨.rxPush b, hx⟩
  | fault hx => exact .inr ⟨.rxFault, hx⟩
  | scan _ _ hx => exact .inr ⟨.scanStep, hx⟩
  | respond _ _ hx => exact .inr ⟨.respond, hx⟩
  | crcInit hx => exact .inr ⟨.crcInitOp, hx⟩
  | crcByte b hx => exact .inr ⟨.crcByte b, hx⟩

/-- Settles O47: the producer writes at `len`, the consumer only empties the buffer. -/
theorem committedBytesAreImmutable : Obligations.CommittedBytesAreImmutable := by
  intro s t h
  obtain ⟨r, rfl | ⟨i, hx⟩⟩ := step_idle_or_exec s t h
  · exact .inr ⟨Nat.le_refl _, fun _ _ => rfl⟩
  · exact exec_keeps_committed i (s.withInputs r) t hx

/-- Settles O48: no agent owns the table or the parameters. -/
theorem tableAndParametersAreConstant : Obligations.TableAndParametersAreConstant := by
  rintro i s t (hx | hstep)
  · exact exec_keeps_table i s t hx
  · obtain ⟨r, rfl | ⟨j, hx⟩⟩ := step_idle_or_exec s t hstep
    · exact ⟨rfl, rfl⟩
    · exact exec_keeps_table j (s.withInputs r) t hx

/-- Settles O49: each instruction has the frame of its own agent, and no other agent's clause is about it. -/
theorem singleWriterDiscipline : Obligations.SingleWriterDiscipline := by
  intro i s t h
  rcases exec_frame i s t h with ⟨hagent, hf⟩ | ⟨hagent, hf⟩ | ⟨hagent, hx⟩ <;> rw [hagent]
  · exact ⟨fun _ => ⟨hf.cursor, hf.wait, hf.st, hf.passActive, hf.crc, hf.txbuf, hf.outputs, hf.err, hf.len,
      hf.cells⟩, nofun, hf.inputs⟩
  · exact ⟨nofun, fun _ => ⟨hf.buf, hf.len, hf.err, hf.cursor⟩, hf.inputs⟩
  · obtain ⟨-, -, hinputs, -⟩ := execReset_frame s t hx
    exact ⟨nofun, nofun, hinputs⟩

end Sys2Proof.Machine
end

section
/-! What is never observed (10_state.md R28, R29, R34). A simulation is a relation of states that look alike and that
every update of the state keeps; every operation and every step keeps a simulation. The two relations of the statements,
equal up to stale bytes and equal up to `crc` and `txbuf`, are simulations. -/

namespace Sys2Proof.Machine

open Sys2Proof

/-! ### States that look alike -/

/-- Everything the operations decide by: all but `crc`, `txbuf`, the traces and the cells at or above `len`. -/
structure LooksLike (s s' : State) : Prop where
  cfg        : s'.cfg = s.cfg
  regs       : s'.regs = s.regs
  len        : s'.len = s.len
  cursor     : s'.cursor = s.cursor
  wait       : s'.wait = s.wait
  err        : s'.err = s.err
  st         : s'.st = s.st
  passActive : s'.passActive = s.passActive
  inputs     : s'.inputs = s.inputs
  draws      : s'.draws = s.draws
  cells      : agreeBelow s.buf s'.buf s.len

theorem readCells_congr (m m' : List Host.Cell) (a n : Nat)
    (h : ∀ i, i < a + n → Memory.read m i = Memory.read m' i) : readCells m' a n = readCells m a n := by
  induction n generalizing a with
  | zero => rfl
  | succ n ih => simp only [readCells, h a (by omega), ih (a + 1) fun i hi => h i (by omega)]

theorem readRegs_congr (s s' : State) (i n : Nat) (h : s'.regs = s.regs) : readRegs s' i n = readRegs s i n := by
  induction n generalizing i with
  | zero => rfl
  | succ n ih => simp only [readRegs, readReg, h, ih]

section LooksLike

variable {s s' : State} (v : LooksLike s s')
include v

theorem LooksLike.memRead_eq (a n : Nat) : memRead s' a n = memRead s a n := by
  have hcells : a + n ≤ s.len → readCells s'.buf a n = readCells s.buf a n := fun hle =>
    readCells_congr s.buf s'.buf a n fun i hi => v.cells i (Nat.lt_of_lt_of_le hi hle)
  unfold memRead State.length
  rw [v.len]
  by_cases hle : a + n ≤ s.len
  · rw [if_pos hle, if_pos hle, hcells hle]
  · rw [if_neg hle, if_neg hle]

theorem LooksLike.bufRead_eq (a : Nat) : bufRead s' a = bufRead s a := by
  simp only [bufRead, v.memRead_eq]

theorem LooksLike.frameAtCursor_eq : frameAtCursor s' = frameAtCursor s := by
  simp only [frameAtCursor, v.cursor, v.memRead_eq]

theorem LooksLike.buildBody_eq (f : List Byte) : buildBody s' f = buildBody s f := by
  simp only [buildBody, readRegs_congr s s' _ _ v.regs]

theorem LooksLike.respondEnabled_eq : s'.respondEnabled = s.respondEnabled := by
  simp only [State.respondEnabled, v.st]

theorem LooksLike.quiescent_eq : s'.quiescent = s.quiescent := by
  simp only [State.quiescent, v.st, v.passActive]

theorem LooksLike.fsmVector_eq : s'.fsmVector = s.fsmVector := by
  simp only [State.fsmVector, v.st, v.passActive]

theorem LooksLike.scannerSelected_eq : scannerSelected s' = scannerSelected s := by
  unfold scannerSelected
  rw [v.fsmVector_eq]

theorem LooksLike.cycleInputs_eq (c : Cycle) : cycleInputs c s' = cycleInputs c s := by
  unfold cycleInputs
  rw [v.scannerSelected_eq]

theorem LooksLike.pendingResponse_eq : pendingResponse s' = pendingResponse s := by
  simp only [pendingResponse, build, v.respondEnabled_eq, v.frameAtCursor_eq, v.cfg, v.buildBody_eq]

end LooksLike

/-! ### Simulations -/

/-- The updates of the state that the operations are made of. -/
inductive Update where
  | raise (e : Event)
  | emit (o : Output)
  | withInputs (r : List Input)
  | fullReset
  | appendByte (b : Byte)
  | setErr
  | beginPass
  | advance
  | resolve
  | keepWaiting
  | useEngine
  | send (f body : List Byte)
  | forget
  | initCrc
  | feedCrc (b : Byte)

/-- What each update does, by the model's own operation. -/
def Update.apply : Update → State → State
  | .raise e, s => s.raise e
  | .emit o, s => s.emit o
  | .withInputs r, s => s.withInputs r
  | .fullReset, s => s.fullReset
  | .appendByte b, s => s.appendByte b
  | .setErr, s => s.setErr
  | .beginPass, s => s.beginPass
  | .advance, s => s.advance
  | .resolve, s => s.resolve
  | .keepWaiting, s => s.keepWaiting
  | .useEngine, s => s.useEngine
  | .send f body, s => handOver f body s
  | .forget, s => s.forget
  | .initCrc, s => { s with crc := crcInit }
  | .feedCrc b, s => { s with crc := crcByte s.crc b }

/-- A relation of states that look alike, kept by every update. -/
structure Simulation (R : State → State → Prop) : Prop where
  looksLike : ∀ {s s'}, R s s' → LooksLike s s'
  update    : ∀ {s s'} (u : Update), R s s' → R (u.apply s) (u.apply s')

/-- The same kind of outcome, with the same reason or with next states related by `R`. -/
inductive RelatedOutcome (R : State → State → Prop) :
    Host.Outcome State Fault Refusal → Host.Outcome State Fault Refusal → Prop where
  | next {t t' : State} (h : R t t') : RelatedOutcome R (.next t) (.next t')
  | fault (e : Fault) : RelatedOutcome R (.fault e) (.fault e)
  | refused (r : Refusal) : RelatedOutcome R (.refused r) (.refused r)

theorem RelatedOutcome.of_next {R : State → State → Prop} {o o' : Host.Outcome State Fault Refusal} {t : State}
    (h : RelatedOutcome R o o') (ho : o = .next t) : ∃ t', o' = .next t' ∧ R t t' := by
  cases h with
  | next hr => cases ho; exact ⟨_, rfl, hr⟩
  | fault e => cases ho
  | refused r => cases ho

/-- Two conditionals on one condition are related branch by branch. -/
theorem RelatedOutcome.ite {R : State → State → Prop} {o₁ o₂ o₁' o₂' : Host.Outcome State Fault Refusal} {p : Prop}
    {d d' : Decidable p} (hpos : p → RelatedOutcome R o₁ o₁') (hneg : ¬p → RelatedOutcome R o₂ o₂') :
    RelatedOutcome R (@ite _ p d o₁ o₂) (@ite _ p d' o₁' o₂') := by
  by_cases hp : p
  · rw [if_pos hp, if_pos hp]; exact hpos hp
  · rw [if_neg hp, if_neg hp]; exact hneg hp

section Simulation

variable {R : State → State → Prop} (sim : Simulation R) {s s' : State} (h : R s s')
include sim h

theorem Simulation.raise_fullReset (e : Event) : R (s.raise e).fullReset (s'.raise e).fullReset :=
  sim.update .fullReset (sim.update (.raise e) h)

theorem Simulation.incompleteObservation_related : R (incompleteObservation s) (incompleteObservation s') := by
  have v := sim.looksLike h
  simp only [incompleteObservation, v.wait, v.cfg, v.cursor]
  split
  · exact sim.raise_fullReset h _
  · exact sim.update (.raise _) (sim.update .keepWaiting h)

theorem Simulation.readCandidate_related (f : List Byte) : R (readCandidate f s) (readCandidate f s') := by
  have hengine := sim.update .useEngine h
  simp only [readCandidate, (sim.looksLike h).cursor]
  split
  · exact sim.update (.raise _) (sim.update .resolve hengine)
  · exact sim.update .advance (sim.update (.raise _) hengine)

theorem Simulation.skipCandidate_related (c : Byte) : R (skipCandidate c s) (skipCandidate c s') := by
  simp only [skipCandidate, (sim.looksLike h).cursor]
  exact sim.update .advance (sim.update (.raise _) h)

theorem Simulation.fullCandidate_related (f : List Byte) : R (fullCandidate f s) (fullCandidate f s') := by
  unfold fullCandidate
  split
  · exact sim.readCandidate_related h f
  · exact sim.skipCandidate_related h _

theorem Simulation.sendResponse_related (f : List Byte) :
    (∃ e, sendResponse f s = .error e ∧ sendResponse f s' = .error e) ∨
      ∃ t t', sendResponse f s = .ok t ∧ sendResponse f s' = .ok t' ∧ R t t' := by
  have v := sim.looksLike h
  simp only [sendResponse, v.buildBody_eq, v.cfg]
  cases buildBody s f with
  | error e => exact .inl ⟨e, rfl, rfl⟩
  | ok body =>
    by_cases hfit : (withChecksum body).length ≤ s.cfg.txCap
    · exact .inr ⟨_, _, if_pos hfit, if_pos hfit, sim.update (.send f body) h⟩
    · exact .inl ⟨_, if_neg hfit, if_neg hfit⟩

theorem Simulation.cutResponse_related : R (cutResponse s) (cutResponse s') := by
  have v := sim.looksLike h
  simp only [cutResponse, v.pendingResponse_eq, v.draws]
  cases pendingResponse s with
  | none => exact h
  | some r => exact sim.update (.emit _) h

theorem Simulation.execReset_related : RelatedOutcome R (execReset s) (execReset s') :=
  .next (sim.update .fullReset (sim.update .forget (sim.cutResponse_related h)))

theorem Simulation.execRxPush_related (b : Byte) : RelatedOutcome R (execRxPush b s) (execRxPush b s') := by
  have v := sim.looksLike h
  simp only [execRxPush, v.len, v.cfg]
  exact .ite (fun _ => .next (sim.update (.appendByte b) h)) fun _ =>
    .next (sim.update (.raise _) (sim.update .setErr h))

theorem Simulation.execPollStart_related : RelatedOutcome R (execPollStart s) (execPollStart s') := by
  have v := sim.looksLike h
  simp only [execPollStart, State.length, v.quiescent_eq, v.err, v.len, v.cfg]
  refine .ite (fun _ => ?_) fun _ => .next h
  refine .ite (fun _ => .next (sim.raise_fullReset h _)) fun _ => ?_
  refine .ite (fun _ => ?_) fun _ => .next (sim.update .beginPass h)
  exact .ite (fun _ => .next (sim.incompleteObservation_related h)) fun _ => .next (sim.update (.raise _) h)

theorem Simulation.execScanStep_related : RelatedOutcome R (execScanStep s) (execScanStep s') := by
  have v := sim.looksLike h
  simp only [execScanStep, State.length, State.scanEnabled, v.passActive, v.len, v.cursor,
    v.bufRead_eq, v.frameAtCursor_eq]
  refine .ite (fun _ => ?_) fun _ => .next h
  refine .ite (fun _ => .next (sim.raise_fullReset h _)) fun _ => ?_
  cases bufRead s s.cursor with
  | error e => exact .fault e
  | ok b =>
    refine .ite (fun _ => .next (sim.update .advance h)) fun _ => ?_
    refine .ite (fun _ => .next (sim.incompleteObservation_related h)) fun _ => ?_
    cases frameAtCursor s with
    | error e => exact .fault e
    | ok f => exact .next (sim.fullCandidate_related h f)

theorem Simulation.execRespond_related : RelatedOutcome R (execRespond s) (execRespond s') := by
  have v := sim.looksLike h
  simp only [execRespond, v.respondEnabled_eq, v.frameAtCursor_eq, v.cfg]
  refine .ite (fun _ => ?_) fun _ => .next h
  cases frameAtCursor s with
  | error e => exact .fault e
  | ok f =>
    refine .ite (fun _ => ?_) fun _ => ?_
    · rcases sim.sendResponse_related h f with ⟨e, he, he'⟩ | ⟨t, t', ht, ht', hr⟩
      · simp only [he, he']; exact .fault e
      · simp only [ht, ht']; exact .next (sim.update .fullReset hr)
    · cases s.cfg.bounds with
      | drop => exact .next (sim.raise_fullReset h _)
      | refuse => exact .refused _

theorem Simulation.execResponse_related (n : Byte) : RelatedOutcome R (execResponse n s) (execResponse n s') := by
  have v := sim.looksLike h
  simp only [execResponse, v.respondEnabled_eq, v.frameAtCursor_eq, v.cfg]
  refine .ite (fun _ => ?_) fun _ => .next h
  cases frameAtCursor s with
  | error e => exact .fault e
  | ok f =>
    refine .ite (fun _ => ?_) fun _ => .next h
    rcases sim.sendResponse_related h f with ⟨e, he, he'⟩ | ⟨t, t', ht, ht', hr⟩
    · simp only [he, he']; exact .fault e
    · simp only [ht, ht']; exact .next hr

theorem Simulation.execRead_related (start count checksum : Word) :
    RelatedOutcome R (execRead start count checksum s) (execRead start count checksum s') := by
  simp only [execRead, State.scanEnabled, (sim.looksLike h).passActive]
  exact .ite (fun _ => .next (sim.readCandidate_related h _)) fun _ => .next h

theorem Simulation.execWrite_related (start count checksum : Word) :
    RelatedOutcome R (execWrite start count checksum s) (execWrite start count checksum s') := by
  simp only [execWrite, State.scanEnabled, (sim.looksLike h).passActive]
  exact .ite (fun _ => .next (sim.skipCandidate_related h _)) fun _ => .next h

theorem Simulation.exec_related (i : Instr) : RelatedOutcome R (exec i s) (exec i s') := by
  cases i with
  | read start count checksum => exact sim.execRead_related h start count checksum
  | write start count checksum => exact sim.execWrite_related h start count checksum
  | response n => exact sim.execResponse_related h n
  | reset => exact sim.execReset_related h
  | pollStart => exact sim.execPollStart_related h
  | rxPush d => exact sim.execRxPush_related h d
  | rxFault => exact .next (sim.update (.raise _) (sim.update .setErr h))
  | scanStep => exact sim.execScanStep_related h
  | respond => exact sim.execRespond_related h
  | crcInitOp => exact .next (sim.update .initCrc h)
  | crcByte d => exact .next (sim.update (.feedCrc d) h)

theorem Simulation.runWord_related (w : PortWord) : RelatedOutcome R (runWord w s) (runWord w s') := by
  unfold runWord
  cases decode w with
  | error e => exact .next h
  | ok i => exact sim.exec_related h i

theorem Simulation.runScanner_related : RelatedOutcome R (runScanner s) (runScanner s') := by
  simp only [runScanner, (sim.looksLike h).fsmVector_eq]
  exact sim.runWord_related h _

theorem Simulation.stepInput_related : RelatedOutcome R (stepInput s) (stepInput s') := by
  have v := sim.looksLike h
  have hnext := fun r => sim.update (.withInputs r) h
  simp only [stepInput, v.inputs, v.cycleInputs_eq]
  cases s.inputs with
  | nil => exact sim.runScanner_related h
  | cons x r =>
    cases x with
    | scanner => exact sim.runScanner_related (hnext r)
    | rx w => exact sim.runWord_related (hnext _) _
    | ctl w => exact sim.runWord_related (hnext r) _
    | crc w => exact sim.runWord_related (hnext r) _
    | cycle c => exact .next (hnext _)

theorem Simulation.step_related : RelatedOutcome R (step s) (step s') := by
  simp only [step, (sim.looksLike h).cfg]
  exact .ite (fun _ => sim.stepInput_related h) fun _ => .refused _

end Simulation

/-! ### Stale bytes -/

/-- Equal but for the buffer, whose committed bytes agree (R34). -/
def EqualUpToStale (s s' : State) : Prop :=
  ∃ m, s' = { s with buf := m } ∧ agreeBelow s.buf m s.len

/-- Two buffers that agree below `n` agree below `n + 1` once the same byte is written at `n`. -/
theorem agreeBelow_write {m m' : List Host.Cell} {n : Nat} (b : Byte) (h : agreeBelow m m' n) :
    agreeBelow (Memory.write m n b) (Memory.write m' n b) (n + 1) := by
  intro i hi
  rcases Nat.lt_succ_iff_lt_or_eq.1 hi with hi | rfl
  · rw [Memory.read_write_other _ _ _ _ (Nat.ne_of_lt hi), Memory.read_write_other _ _ _ _ (Nat.ne_of_lt hi), h i hi]
  · rw [Memory.read_write_same, Memory.read_write_same]

theorem equalUpToStale_update {s s' : State} (u : Update) (h : EqualUpToStale s s') :
    EqualUpToStale (u.apply s) (u.apply s') := by
  obtain ⟨m, rfl, hm⟩ := h
  cases u with
  | appendByte b => exact ⟨_, rfl, agreeBelow_write b hm⟩
  | fullReset => exact ⟨m, rfl, nofun⟩
  | forget => exact ⟨[], rfl, fun _ _ => rfl⟩
  | _ => exact ⟨m, rfl, hm⟩

theorem equalUpToStale_simulation : Simulation EqualUpToStale where
  looksLike := by
    rintro s s' ⟨m, rfl, hm⟩
    exact ⟨rfl, rfl, rfl, rfl, rfl, rfl, rfl, rfl, rfl, rfl, hm⟩
  update := equalUpToStale_update

/-- Settles O51: equality up to stale bytes is a simulation, because an append extends the agreement by its own cell. -/
theorem staleBytesAreNeverObserved : Obligations.StaleBytesAreNeverObserved := by
  intro s t m hm hstep
  have hstart : EqualUpToStale s { s with buf := m } := ⟨m, rfl, hm⟩
  obtain ⟨t', ht', m', rfl, hm'⟩ := (equalUpToStale_simulation.step_related hstart).of_next hstep
  exact ⟨_, ht', rfl, hm'⟩

/-! ### The working register and the staging buffer -/

/-- Equal but for `crc` and `txbuf` (R28, R29). -/
def EqualUpToHidden (s s' : State) : Prop :=
  ∃ v m, s' = { s with crc := v, txbuf := m }

theorem equalUpToHidden_update {s s' : State} (u : Update) (h : EqualUpToHidden s s') :
    EqualUpToHidden (u.apply s) (u.apply s') := by
  obtain ⟨v, m, rfl⟩ := h
  cases u <;> exact ⟨_, _, rfl⟩

theorem equalUpToHidden_simulation : Simulation EqualUpToHidden where
  looksLike := by
    rintro s s' ⟨v, m, rfl⟩
    exact ⟨rfl, rfl, rfl, rfl, rfl, rfl, rfl, rfl, rfl, rfl, fun _ _ => rfl⟩
  update := equalUpToHidden_update

/-- Settles O52: equality up to `crc` and `txbuf` is a simulation, because an update that reads either
writes only these. -/
theorem workingRegisterAndStagingAreHidden : Obligations.WorkingRegisterAndStagingAreHidden := by
  intro i s t v m hx
  have hstart : EqualUpToHidden s { s with crc := v, txbuf := m } := ⟨v, m, rfl⟩
  obtain ⟨t', ht', v', m', rfl⟩ := (equalUpToHidden_simulation.exec_related hstart i).of_next hx
  exact ⟨_, ht', rfl⟩

end Sys2Proof.Machine
end

section
/-! Atomic operations and the order of one clock cycle (20_memory.md R60, R63): the step as an equation for each kind
of schedule entry, runs of a few steps, and what an `RXPORT` vector selects by its two flag bits. -/

namespace Sys2Proof.Machine

open Sys2Proof

/-! ### The step for each entry of the schedule -/

theorem runWord_of_decode_ok (w : PortWord) (s : State) (i : Instr) (h : decode w = .ok i) :
    runWord w s = exec i s := by
  simp [runWord, h]

section Entry

variable (s : State) {r : List Input} (hwf : s.cfg.wf = true)
include hwf

theorem step_of_inputs_ctl {v : BitVec 2} {i : Instr} (h : s.inputs = .ctl v :: r) (hi : decode (.ctl v) = .ok i) :
    step s = exec i (s.withInputs r) := by
  rw [step_of_wf s hwf, stepInput, h]
  exact runWord_of_decode_ok _ _ i hi

theorem step_of_inputs_crc {v : BitVec 10} {i : Instr} (h : s.inputs = .crc v :: r) (hi : decode (.crc v) = .ok i) :
    step s = exec i (s.withInputs r) := by
  rw [step_of_wf s hwf, stepInput, h]
  exact runWord_of_decode_ok _ _ i hi

theorem step_of_inputs_rx {v : BitVec 10} {i : Instr} (h : s.inputs = .rx v :: r) (hi : decode (.rx v) = .ok i) :
    step s = exec i (s.withInputs (rxRestInputs v ++ r)) := by
  rw [step_of_wf s hwf, stepInput, h]
  exact runWord_of_decode_ok _ _ i hi

theorem step_of_inputs_scanner {i : Instr} (h : s.inputs = .scanner :: r)
    (hi : decode (.fsm s.fsmVector) = .ok i) : step s = exec i (s.withInputs r) := by
  rw [step_of_wf s hwf, stepInput, h]
  exact runWord_of_decode_ok _ _ i hi

theorem step_of_inputs_cycle {c : Cycle} (h : s.inputs = .cycle c :: r) :
    step s = .next (s.withInputs (cycleInputs c s ++ r)) := by
  rw [step_of_wf s hwf, stepInput, h]

end Entry

theorem rxRestInputs_of_none {v : BitVec 10} (h : rxRest v = none) : rxRestInputs v = [] := by
  simp only [rxRestInputs, h]

theorem rxRestInputs_of_some {v v' : BitVec 10} (h : rxRest v = some v') : rxRestInputs v = [.rx v'] := by
  simp only [rxRestInputs, h]

/-- Settles O5: the entry on each port gives its own equation of the step; only `RXPORT` can leave a rest. -/
theorem stepRunsPortVector : Obligations.StepRunsPortVector := by
  intro s r i hwf
  refine ⟨fun v h hi => step_of_inputs_ctl s hwf h hi, fun v h hi => step_of_inputs_crc s hwf h hi,
    fun v h hi hrest => ?_, fun v v' h hi hrest => ?_⟩
  · have hstep := step_of_inputs_rx s hwf h hi
    rwa [rxRestInputs_of_none hrest] at hstep
  · have hstep := step_of_inputs_rx s hwf h hi
    rwa [rxRestInputs_of_some hrest] at hstep

/-! ### Runs -/

/-- A run goes on from what its first step answers. -/
theorem run_succ_of_step {s t : State} (k : Nat) (h : step s = .next t) :
    Host.Core.run Sys2Proof.core (k + 1) s = Host.Core.run Sys2Proof.core k t := by
  have hcore : Sys2Proof.core.step s = .next t := h
  simp only [Host.Core.run, hcore]

/-- A run of one step is the step, whatever it answers. -/
theorem run_one (s : State) : Host.Core.run Sys2Proof.core 1 s = step s := by
  have hcore : Sys2Proof.core.step s = step s := rfl
  simp only [Host.Core.run, hcore]
  cases step s <;> rfl

/-! ### `RESET` in a cycle -/

theorem cycleInputs_of_rst (c : Cycle) (s : State) (h : c.ctl.getLsbD 1 = true) : cycleInputs c s = [.ctl c.ctl] :=
  if_pos h

theorem decode_ctl_of_rst (v : BitVec 2) (h : v.getLsbD 1 = true) : decode (.ctl v) = .ok .reset :=
  if_pos h

/-- Settles O10: such a cycle unfolds to its `CTLPORT` vector alone, which selects `RESET`. -/
theorem resetWinsItsCycle : Obligations.ResetWinsItsCycle := by
  intro s c r hwf h hrst
  have hcycle : step s = .next (s.withInputs ([.ctl c.ctl] ++ r)) := by
    rw [step_of_inputs_cycle s hwf h, cycleInputs_of_rst c s hrst]
  rw [run_succ_of_step 1 hcycle, run_one]
  exact step_of_inputs_ctl (s.withInputs ([.ctl c.ctl] ++ r)) hwf rfl (decode_ctl_of_rst c.ctl hrst)

/-! ### The `RXPORT` vector by its flag bits -/

section Flags

variable (p : BitVec 2) (d : Byte)

theorem getLsbD_append_byte (k : Nat) : (p ++ d).getLsbD (k + 8) = p.getLsbD k := by
  rw [BitVec.getLsbD_append, if_neg (Nat.not_lt.2 (Nat.le_add_left 8 k)), Nat.add_sub_cancel]

theorem extractLsb'_append_byte : (p ++ d).extractLsb' 0 8 = d :=
  (BitVec.extractLsb'_append_eq_of_add_le (by decide)).trans BitVec.extractLsb'_eq_self

/-- What a vector `{rx_fault, rx_valid, rx_data}` selects depends on its flags alone (30_encoding.md R93). -/
theorem decode_rx_append :
    decode (.rx (p ++ d)) =
      if p.getLsbD 0 then .ok (.rxPush d) else if p.getLsbD 1 then .ok .rxFault else .error .noOperation := by
  simp only [decode, decodeRx, extractLsb'_append_byte, getLsbD_append_byte p d 0, getLsbD_append_byte p d 1]

/-- Only a vector with both flags set has a rest, the fault (R63 e). -/
theorem rxRest_append :
    rxRest (p ++ d) = if p.getLsbD 0 && p.getLsbD 1 then some (0b10#2 ++ d) else none := by
  simp only [rxRest, extractLsb'_append_byte, getLsbD_append_byte p d 0, getLsbD_append_byte p d 1]

end Flags

/-- A vector with `rx_valid` set and the buffer below capacity appends its byte (41_intake_fifo.md R130). -/
theorem step_push_vector {s : State} {r : List Input} (p : BitVec 2) (b : Byte) (hwf : s.cfg.wf = true)
    (hvalid : p.getLsbD 0 = true) (h : s.inputs = .rx (p ++ b) :: r) (hlt : s.len < s.cfg.cap) :
    step s = .next ((s.withInputs (rxRestInputs (p ++ b) ++ r)).appendByte b) := by
  rw [step_of_inputs_rx s hwf h ((decode_rx_append p b).trans (if_pos hvalid))]
  exact if_pos hlt

/-- The vector of a fault alone raises the error flag (R133). -/
theorem step_fault_vector {s : State} {r : List Input} (b : Byte) (hwf : s.cfg.wf = true)
    (h : s.inputs = .rx (0b10#2 ++ b) :: r) :
    step s = .next ((s.withInputs r).setErr.raise .lineFault) := by
  rw [step_of_inputs_rx s hwf h (decode_rx_append 0b10#2 b), rxRestInputs_of_none (rxRest_append 0b10#2 b)]
  rfl

/-- Settles O12: the push leaves the fault's vector first in the schedule. -/
theorem pushBeforeFaultInOneVector : Obligations.PushBeforeFaultInOneVector := by
  intro s b r hwf h hlt
  have hpush := step_push_vector 0b11#2 b hwf rfl h hlt
  rw [rxRestInputs_of_some (rxRest_append 0b11#2 b)] at hpush
  rw [run_succ_of_step 1 hpush, run_one]
  exact step_fault_vector b hwf rfl

/-! ### A full reset in a cycle -/

theorem exec_keeps_inputs (i : Instr) (s t : State) (h : exec i s = .next t) : t.inputs = s.inputs := by
  obtain ⟨-, -, hinputs⟩ := singleWriterDiscipline i s t h
  exact hinputs

theorem scannerSelected_of_ok {s : State} {i : Instr} (h : decode (.fsm s.fsmVector) = .ok i) :
    scannerSelected s = true := by
  simp only [scannerSelected, h]

theorem scannerSelected_of_none {s : State} (h : ∀ j, decode (.fsm s.fsmVector) ≠ .ok j) :
    scannerSelected s = false := by
  unfold scannerSelected
  split
  · rename_i j hj; exact absurd hj (h j)
  · rfl

/-- A cycle in which the scanner steps (30_encoding.md R94; log 15). -/
theorem cycleInputs_of_scan {c : Cycle} {s : State} {i : Instr} (hrst : c.ctl.getLsbD 1 = false)
    (hfsm : decode (.fsm s.fsmVector) = .ok i) (hscan : c.scan = true) :
    cycleInputs c s = [.scanner, .rx c.rx, .crc c.crc] := by
  unfold cycleInputs
  rw [hrst, scannerSelected_of_ok hfsm, hscan]
  rfl

/-- A cycle in which the scanner has no operation, so that a poll counts (R93; log 15). -/
theorem cycleInputs_of_poll {c : Cycle} {s : State} (hrst : c.ctl.getLsbD 1 = false)
    (hfsm : ∀ j, decode (.fsm s.fsmVector) ≠ .ok j) :
    cycleInputs c s = [.ctl c.ctl, .rx c.rx, .crc c.crc] := by
  unfold cycleInputs
  rw [hrst, scannerSelected_of_none hfsm]
  rfl

/-- Without `RESET`, the second step of a cycle is the consumer's: the scanner's operation where one is selected, else
the poll; the producer's vector comes next (R63). -/
theorem run_cycle_consumer {s t : State} {c : Cycle} {r : List Input} {i : Instr} (k : Nat) (hwf : s.cfg.wf = true)
    (h : s.inputs = .cycle c :: r) (hrst : c.ctl.getLsbD 1 = false)
    (hsel : decode (.fsm s.fsmVector) = .ok i ∧ c.scan = true ∨
      (∀ j, decode (.fsm s.fsmVector) ≠ .ok j) ∧ decode (.ctl c.ctl) = .ok i)
    (hx : exec i (s.withInputs ([.rx c.rx, .crc c.crc] ++ r)) = .next t) :
    Host.Core.run Sys2Proof.core (k + 2) s = Host.Core.run Sys2Proof.core k t := by
  rw [run_succ_of_step (k + 1) (step_of_inputs_cycle s hwf h)]
  apply run_succ_of_step k
  rcases hsel with ⟨hfsm, hscan⟩ | ⟨hfsm, hctl⟩
  · rw [cycleInputs_of_scan hrst hfsm hscan]
    exact (step_of_inputs_scanner (s.withInputs ([.scanner, .rx c.rx, .crc c.crc] ++ r)) hwf rfl hfsm).trans hx
  · rw [cycleInputs_of_poll hrst hfsm]
    exact (step_of_inputs_ctl (s.withInputs ([.ctl c.ctl, .rx c.rx, .crc c.crc] ++ r)) hwf rfl hctl).trans hx

/-- Settles O11: after the consumer's step the producer's vector is first, and it finds an empty buffer. -/
theorem fullResetBeforeProducerInCycle : Obligations.FullResetBeforeProducerInCycle := by
  intro s t c r i hwf h hrst hsel hx hlen hcursor herr
  have hrun := run_cycle_consumer 1 hwf h hrst hsel hx
  have hinputs : t.inputs = .rx c.rx :: .crc c.crc :: r := exec_keeps_inputs i _ t hx
  have hcfg : t.cfg = s.cfg := (exec_keeps_table i _ t hx).2
  have hwft : t.cfg.wf = true := hcfg ▸ hwf
  have hroom : t.len < t.cfg.cap := by
    have := ((Config.wf_iff t.cfg).1 hwft).1
    omega
  refine ⟨fun b hb => ?_, fun b hb => ?_⟩ <;> rw [hb] at hinputs
  · refine ⟨_, hrun.trans ((run_one t).trans (step_push_vector 0b01#2 b hwft rfl hinputs hroom)), ?_⟩
    simp [hlen, hcursor, herr]
  · refine ⟨_, hrun.trans ((run_one t).trans (step_fault_vector b hwft hinputs)), ?_⟩
    exact ⟨hlen, hcursor, rfl⟩

end Sys2Proof.Machine
end

section
/-! Availability (42_frame_scanner.md R166): from the invariant every operation a step can run answers, but for an
out-of-range request under `REFUSE`. -/

namespace Sys2Proof.Machine

open Sys2Proof

/-- A next state, or U1's refusal where the policy is `REFUSE`: never a fault. -/
inductive Answers (p : BoundsPolicy) : Host.Outcome State Fault Refusal → Prop where
  | next (t : State) : Answers p (.next t)
  | refused (hp : p = .refuse) : Answers p (.refused .outOfRangeRequest)

theorem Answers.of_exists {p : BoundsPolicy} {o : Host.Outcome State Fault Refusal} (h : ∃ t, o = .next t) :
    Answers p o := by
  obtain ⟨t, rfl⟩ := h
  exact .next t

theorem Answers.no_fault {p : BoundsPolicy} {o : Host.Outcome State Fault Refusal} (h : Answers p o) (e : Fault) :
    o ≠ .fault e := by
  cases h <;> nofun

theorem Answers.exists_of_drop {p : BoundsPolicy} {o : Host.Outcome State Fault Refusal} (h : Answers p o)
    (hp : p = .drop) : ∃ t, o = .next t := by
  cases h with
  | next t => exact ⟨t, rfl⟩
  | refused hp' => cases hp.symm.trans hp'

theorem execRead_answers (s : State) (start count checksum : Word) :
    ∃ t, execRead start count checksum s = .next t := by
  unfold execRead
  split <;> exact ⟨_, rfl⟩

theorem execWrite_answers (s : State) (start count checksum : Word) :
    ∃ t, execWrite start count checksum s = .next t := by
  unfold execWrite
  split <;> exact ⟨_, rfl⟩

theorem execPollStart_answers (s : State) : ∃ t, execPollStart s = .next t := by
  unfold execPollStart
  split_ifs <;> exact ⟨_, rfl⟩

theorem execRxPush_answers (s : State) (b : Byte) : ∃ t, execRxPush b s = .next t := by
  unfold execRxPush
  split <;> exact ⟨_, rfl⟩

section Inv

variable {s : State} (h : s.Inv)
include h

/-- A resolved session holds a whole frame at the cursor (10_state.md R31 d). -/
theorem State.Inv.frameAtCursor_of_resolved (hst : s.st = .resolved) : ∃ f, frameAtCursor s = .ok f := by
  obtain ⟨f, hf, -⟩ := (validAt_iff s s.cursor).1 (h.resolved hst)
  exact ⟨f, memRead_of_holdsFrame s s.cursor f hf⟩

/-- An in-range response reads within the table and fits the staging buffer, by R6's `T >= 5 + 2*N` (20_memory.md
R57). -/
theorem State.Inv.sendResponse_exists (f : List Byte) (hrange : inRange s.cfg (startOf f) (countOf f) = true) :
    ∃ t, sendResponse f s = .ok t := by
  have hsum : (startOf f).toNat + (countOf f).toNat ≤ s.regs.length := by
    rw [h.table]; exact (inRange_iff _ _ _).1 hrange
  obtain ⟨-, -, htx, -⟩ := (Config.wf_iff s.cfg).1 h.cfg_wf
  refine ⟨_, sendResponse_of_bound f s _ (buildBody_of_bound s f hsum) ?_⟩
  have htable : s.regs.length = s.cfg.tableSize := congrArg List.length h.table
  simp only [withChecksum_length, responseBody_length, List.length_take, List.length_drop]
  omega

theorem State.Inv.execRespond_answers : Answers s.cfg.bounds (execRespond s) := by
  unfold execRespond
  split
  · rename_i hen
    obtain ⟨f, hf⟩ := h.frameAtCursor_of_resolved ((respondEnabled_iff s).1 hen)
    simp only [hf]
    split
    · rename_i hrange
      obtain ⟨t, ht⟩ := h.sendResponse_exists f hrange
      simp only [ht]
      exact .next _
    · split
      · exact .next _
      · rename_i hb; exact .refused hb
  · exact .next s

theorem State.Inv.execResponse_answers (n : Byte) : Answers s.cfg.bounds (execResponse n s) := by
  unfold execResponse
  split
  · rename_i hen
    obtain ⟨f, hf⟩ := h.frameAtCursor_of_resolved ((respondEnabled_iff s).1 hen)
    simp only [hf]
    split
    · rename_i hsel
      obtain ⟨t, ht⟩ := h.sendResponse_exists f (Bool.and_eq_true_iff.1 hsel).1
      simp only [ht]
      exact .next t
    · exact .next s
  · exact .next s

/-- Every instruction answers; only `RESPOND` can be refused. -/
theorem State.Inv.exec_answers (i : Instr) : Answers s.cfg.bounds (exec i s) := by
  cases i with
  | read start count checksum => exact .of_exists (execRead_answers s start count checksum)
  | write start count checksum => exact .of_exists (execWrite_answers s start count checksum)
  | response n => exact h.execResponse_answers n
  | reset => exact .next _
  | pollStart => exact .of_exists (execPollStart_answers s)
  | rxPush b => exact .of_exists (execRxPush_answers s b)
  | rxFault => exact .next _
  | scanStep => exact .of_exists (execScanStep_answers s h)
  | respond => exact h.execRespond_answers
  | crcInitOp => exact .next _
  | crcByte b => exact .next _

theorem State.Inv.runWord_answers (w : PortWord) : Answers s.cfg.bounds (runWord w s) := by
  unfold runWord
  cases decode w with
  | error e => exact .next s
  | ok i => exact h.exec_answers i

/-- Whatever comes next in the schedule, the step is at most one instruction on the state with the schedule moved on. -/
theorem State.Inv.step_answers : Answers s.cfg.bounds (step s) := by
  rw [step_of_wf s h.cfg_wf, stepInput]
  cases s.inputs with
  | nil => exact h.runWord_answers _
  | cons x r =>
    cases x with
    | scanner => exact (h.withInputs r).runWord_answers _
    | rx v => exact (h.withInputs (rxRestInputs v ++ r)).runWord_answers _
    | ctl v => exact (h.withInputs r).runWord_answers _
    | crc v => exact (h.withInputs r).runWord_answers _
    | cycle c => exact .next _

/-- One scanner operation is enabled: the invariant excludes a pass in a resolved session (10_state.md R27). -/
theorem State.Inv.one_enabled :
    (s.quiescent = true ∧ s.scanEnabled = false ∧ s.respondEnabled = false) ∨
    (s.quiescent = false ∧ s.scanEnabled = true ∧ s.respondEnabled = false) ∨
    (s.quiescent = false ∧ s.scanEnabled = false ∧ s.respondEnabled = true) := by
  have hquiet : s.quiescent = (!s.scanEnabled && !s.respondEnabled) := rfl
  rw [hquiet]
  cases hscan : s.scanEnabled <;> cases hresp : s.respondEnabled
  · exact .inl ⟨rfl, rfl, rfl⟩
  · exact .inr (.inr ⟨rfl, rfl, rfl⟩)
  · exact .inr (.inl ⟨rfl, rfl, rfl⟩)
  · exact absurd ((respondEnabled_iff s).1 hresp) (h.pass hscan).1

end Inv

/-- Settles O46: every read of an operation is one the invariant covers, so the step answers. -/
theorem stepNeverFaultsOrSticks : Obligations.StepNeverFaultsOrSticks :=
  fun _ h => ⟨h.step_answers.no_fault, h.step_answers.exists_of_drop, h.one_enabled⟩

end Sys2Proof.Machine
end

section
/-! Encodings (30_encoding.md R82 to R95): a frame as bytes and as a word, the response header, and the port vectors by
their two flag bits. -/

namespace Sys2Proof

open Machine

/-! ### Frames as bytes and as words -/

/-- The bytes of the word built from a request's fields are the request's bytes in wire order (R82, R91). -/
theorem frameWordBytes_of_fields (cmd : Byte) (a k c : Word) :
    frameWordBytes (deviceId ++ cmd ++ a ++ k ++ lo c ++ hi c) = requestBytes cmd a k c := by
  simp (disch := decide) only [frameWordBytes, requestBytes, lo, hi, BitVec.extractLsb'_append_eq_of_le,
    BitVec.extractLsb'_append_eq_of_add_le, BitVec.extractLsb'_eq_self, Nat.reduceSub]

/-- A word is its fields joined again, each read at its place (R85, R86, R91). -/
theorem fields_of_frameWordBytes (w : BitVec 64) :
    (byteAt (frameWordBytes w) 0 ++ byteAt (frameWordBytes w) 1 ++ startOf (frameWordBytes w) ++
      countOf (frameWordBytes w) ++ lo (checksumOf (frameWordBytes w)) ++ hi (checksumOf (frameWordBytes w)) :
        BitVec 64) = w := by
  simp only [startOf, countOf, checksumOf, lo_be16, hi_be16]
  simp (disch := decide) only [frameWordBytes, be16, byteAt_cons_zero, byteAt_cons_succ,
    BitVec.extractLsb'_append_extractLsb'_eq_extractLsb']
  exact BitVec.extractLsb'_eq_self

@[simp] theorem byteAt_requestBytes_zero (cmd : Byte) (a k c : Word) :
    byteAt (requestBytes cmd a k c) 0 = deviceId := rfl

@[simp] theorem byteAt_requestBytes_one (cmd : Byte) (a k c : Word) :
    byteAt (requestBytes cmd a k c) 1 = cmd := rfl

theorem decodeFrame_requestBytes_read (a k c : Word) :
    decodeFrame (requestBytes cmdRead a k c) = .ok (.read a k c) := by
  rw [decodeFrame, if_neg (not_not.2 (byteAt_requestBytes_zero ..)), if_pos (byteAt_requestBytes_one ..),
    startOf_requestBytes, countOf_requestBytes, checksumOf_requestBytes]

theorem decodeFrame_requestBytes_write (a k c : Word) :
    decodeFrame (requestBytes cmdWrite a k c) = .ok (.write a k c) := by
  rw [decodeFrame, if_neg (not_not.2 (byteAt_requestBytes_zero ..)), byteAt_requestBytes_one,
    if_neg (by decide), if_pos rfl, startOf_requestBytes, countOf_requestBytes, checksumOf_requestBytes]

/-- Everything a frame can decode to: it is for this device, and its command byte is one of the two of R90. -/
theorem decodeFrame_ok (f : List Byte) (i : Instr) (h : decodeFrame f = .ok i) :
    byteAt f 0 = deviceId ∧
      (byteAt f 1 = cmdRead ∧ i = .read (startOf f) (countOf f) (checksumOf f) ∨
       byteAt f 1 = cmdWrite ∧ i = .write (startOf f) (countOf f) (checksumOf f)) := by
  unfold decodeFrame at h
  split at h
  · cases h
  · rename_i hdev
    refine ⟨not_not.1 hdev, ?_⟩
    split at h
    · rename_i hcmd; cases h; exact .inl ⟨hcmd, rfl⟩
    · split at h
      · rename_i hcmd; cases h; exact .inr ⟨hcmd, rfl⟩
      · cases h

/-- Everything a 24-bit word can decode to (R83). -/
theorem decodeHeader_ok (h : BitVec 24) (i : Instr) (hi : decodeHeader h = .ok i) :
    h.extractLsb' 8 16 = be16 deviceId cmdRead ∧ i = .response (h.extractLsb' 0 8) := by
  unfold decodeHeader at hi
  split at hi
  · rename_i hhead; cases hi; exact ⟨hhead, rfl⟩
  · cases hi

/-! ### The port vectors by their flag bits -/

/-- What a vector `{crc_init, crc_en, crc_din}` selects depends on its flags alone, `crc_init` first (R95). -/
theorem decode_crc_append (p : BitVec 2) (d : Byte) :
    decode (.crc (p ++ d)) =
      if p.getLsbD 1 then .ok .crcInitOp else if p.getLsbD 0 then .ok (.crcByte d) else .error .noOperation := by
  simp only [decode, decodeCrc, extractLsb'_append_byte, getLsbD_append_byte p d 0,
    getLsbD_append_byte p d 1]

/-! ### The statements -/

/-- Settles O1: a frame's word has the frame's bytes, a vector with data keeps its flags and its byte, and the other
patterns are constants. -/
theorem encodeThenDecodeReturnsInstr : Obligations.EncodeThenDecodeReturnsInstr := by
  intro i
  cases i with
  | read a k c => rw [encode, decode, frameWordBytes_of_fields, decodeFrame_requestBytes_read]
  | write a k c => rw [encode, decode, frameWordBytes_of_fields, decodeFrame_requestBytes_write]
  | response n =>
    obtain ⟨hhead, hcount⟩ := Laws.TableRow.response n
    exact (if_pos hhead).trans (by rw [hcount])
  | rxPush d => exact decode_rx_append 0b01#2 d
  | crcByte d => exact decode_crc_append 0b01#2 d
  | reset | pollStart | rxFault | scanStep | respond | crcInitOp => rfl

/-- Settles O2: the operands and the fixed bytes of a word that decodes are all its bits. -/
theorem frameWordsHaveOneMeaning : Obligations.FrameWordsHaveOneMeaning := by
  constructor
  · intro w i hw
    have hword := fields_of_frameWordBytes w
    obtain ⟨hdev, ⟨hcmd, rfl⟩ | ⟨hcmd, rfl⟩⟩ := decodeFrame_ok (frameWordBytes w) i hw
    · rw [hdev, hcmd] at hword; exact congrArg PortWord.req hword
    · rw [hdev, hcmd] at hword; exact congrArg PortWord.req hword
  · intro h i hh
    obtain ⟨hhead, rfl⟩ := decodeHeader_ok h i hh
    have hword : (h.extractLsb' 8 16 ++ h.extractLsb' 0 8 : BitVec 24) = h :=
      (BitVec.extractLsb'_append_extractLsb'_eq_extractLsb' rfl).trans BitVec.extractLsb'_eq_self
    rw [hhead] at hword
    exact congrArg PortWord.rsp hword

/-- Settles O3: the decoder runs on each word. -/
theorem decodeReadsSpecWords : Obligations.DecodeReadsSpecWords := by
  unfold Obligations.DecodeReadsSpecWords
  decide

/-- Settles O4: each pattern is a vector with known flags. -/
theorem portPatternsSelectOperations : Obligations.PortPatternsSelectOperations := fun d =>
  ⟨decode_rx_append 0b00#2 d, decode_rx_append 0b01#2 d, rxRest_append 0b01#2 d,
    decode_rx_append 0b10#2 d, rxRest_append 0b10#2 d,
    decode_rx_append 0b11#2 d, rxRest_append 0b11#2 d,
    decode_crc_append 0b00#2 d, decode_crc_append 0b01#2 d, decode_crc_append 0b10#2 d, decode_crc_append 0b11#2 d⟩

end Sys2Proof
end

section
/-! The scanner's operations as equations (30_encoding.md R80, R90, R94): when a step runs them, what they do while not
enabled, and a full candidate as the frame command its bytes decode to. -/

namespace Sys2Proof.Machine

open Sys2Proof

/-! ### The scanner's turn -/

/-- The turn of an empty schedule runs what the scanner's vector selects (R94; log 4). -/
theorem step_of_inputs_nil (s : State) {i : Instr} (hwf : s.cfg.wf = true) (h : s.inputs = [])
    (hi : decode (.fsm s.fsmVector) = .ok i) : step s = exec i s := by
  rw [step_of_wf s hwf, stepInput_of_inputs_nil s h]
  exact runWord_of_decode_ok _ s i hi

/-- Settles O6: the vector selects the operation, whichever way the turn comes. -/
theorem stepRunsScannerOperation : Obligations.StepRunsScannerOperation := by
  intro s r hwf
  refine ⟨fun hpass hst => ?_, fun hpass hst => ?_⟩
  · have hi := decode_fsm_scan s hpass hst
    exact ⟨fun h => step_of_inputs_nil s hwf h hi, fun h => step_of_inputs_scanner s hwf h hi⟩
  · have hi := decode_fsm_respond s hpass hst
    exact ⟨fun h => step_of_inputs_nil s hwf h hi, fun h => step_of_inputs_scanner s hwf h hi⟩

/-! ### Operations that are not enabled -/

section NotEnabled

variable {s : State}

theorem execPollStart_of_not_quiescent (h : s.quiescent = false) : execPollStart s = .next s := by
  simp only [execPollStart, h, Bool.false_eq_true, if_false]

theorem not_scanEnabled_of_idle (h : s.passActive = false) : ¬ s.scanEnabled = true := by
  simp [scanEnabled_iff, h]

theorem execScanStep_of_idle (h : s.passActive = false) : execScanStep s = .next s :=
  if_neg (not_scanEnabled_of_idle h)

theorem execRead_of_idle (a k c : Word) (h : s.passActive = false) : execRead a k c s = .next s :=
  if_neg (not_scanEnabled_of_idle h)

theorem execWrite_of_idle (a k c : Word) (h : s.passActive = false) : execWrite a k c s = .next s :=
  if_neg (not_scanEnabled_of_idle h)

theorem execRespond_of_unresolved (h : s.st ≠ .resolved) : execRespond s = .next s :=
  if_neg (mt (respondEnabled_iff s).1 h)

theorem execResponse_of_unresolved (n : Byte) (h : s.st ≠ .resolved) : execResponse n s = .next s :=
  if_neg (mt (respondEnabled_iff s).1 h)

end NotEnabled

/-- Settles O29: every operation tests its own condition before anything else. -/
theorem notEnabledChangesNothing : Obligations.NotEnabledChangesNothing := by
  refine fun s => ⟨fun h => execPollStart_of_not_quiescent ?_, fun h => ?_, fun h => ?_⟩
  · rcases h with h | h <;> simp [State.quiescent, h]
  · exact ⟨execScanStep_of_idle h, fun a k c => ⟨execRead_of_idle a k c h, execWrite_of_idle a k c h⟩⟩
  · exact ⟨execRespond_of_unresolved h, fun n => execResponse_of_unresolved n h⟩

/-! ### The frame commands -/

section Running

variable {s : State} (hpass : s.passActive = true)
include hpass

theorem execRead_of_pass (a k c : Word) :
    execRead a k c s = .next (readCandidate (requestBytes cmdRead a k c) s) :=
  if_pos hpass

theorem execWrite_of_pass (a k c : Word) : execWrite a k c s = .next (skipCandidate cmdWrite s) :=
  if_pos hpass

/-- A frame for this device at the cursor is a full candidate (42_frame_scanner.md R153). -/
theorem execScanStep_of_frame (f : List Byte) (hf : s.holdsFrame s.cursor f) (hdev : byteAt f 0 = deviceId) :
    execScanStep s = .next (fullCandidate f s) := by
  have hread : frameAtCursor s = .ok f := memRead_of_holdsFrame s s.cursor f hf
  obtain ⟨-, hle, hcells⟩ := hf
  have hlt : s.cursor < s.length := Nat.lt_of_lt_of_le (Nat.lt_add_of_pos_right (by decide)) hle
  have hfirst : bufRead s s.cursor = .ok deviceId :=
    bufRead_of_cell s s.cursor deviceId hlt (hdev ▸ hcells 0 (by decide))
  have hfull : ¬ s.length < s.cursor + frameLen := Nat.not_lt.2 hle
  rw [execScanStep, if_pos ((scanEnabled_iff s).2 hpass), if_neg (Nat.not_le.2 hlt)]
  simp only [hfirst, ne_eq, not_true_eq_false, if_false, if_neg hfull, hread]

end Running

/-- A request's checksum verifies when it is the CRC of the six bytes before it (43_checksum_verify.md R190). -/
theorem verify_requestBytes_iff (cmd : Byte) (a k c : Word) :
    verify (requestBytes cmd a k c) = true ↔ crc16 [deviceId, cmd, hi a, lo a, hi k, lo k] = c := by
  rw [verify_iff]
  constructor
  · rintro ⟨hlo, hhi⟩; exact eq_of_lo_hi _ _ hlo hhi
  · rintro rfl; exact ⟨rfl, rfl⟩

/-- Settles O37: the engine is used and the candidate resolves or is skipped, by the checksum. -/
theorem readCommandVerifiesChecksum : Obligations.ReadCommandVerifiesChecksum := by
  refine fun s a k c hpass => ⟨fun hcrc => ?_, fun hcrc => ?_⟩
  · have hver := (verify_requestBytes_iff cmdRead a k c).2 hcrc
    exact ⟨_, _, (execRead_of_pass hpass a k c).trans (congrArg _ (readCandidate_valid _ s hver))⟩
  · have hver := Bool.eq_false_iff.2 (mt (verify_requestBytes_iff cmdRead a k c).1 hcrc)
    exact ⟨_, _, (execRead_of_pass hpass a k c).trans (congrArg _ (readCandidate_invalid _ s hver))⟩

/-- Settles O38: the candidate is skipped by its command byte. -/
theorem writeCommandIsSkipped : Obligations.WriteCommandIsSkipped :=
  fun _ a k c hpass => execWrite_of_pass hpass a k c

/-- A frame is the request bytes of its own fields (30_encoding.md R82, R85, R86). -/
theorem requestBytes_of_frame (f : List Byte) (hlen : f.length = frameLen) (hdev : byteAt f 0 = deviceId) :
    requestBytes (byteAt f 1) (startOf f) (countOf f) (checksumOf f) = f := by
  match f, hlen with
  | [b0, b1, b2, b3, b4, b5, b6, b7], _ =>
    have hb0 : b0 = deviceId := hdev
    simp [requestBytes, startOf, countOf, checksumOf, hb0]

/-- Settles O7: the candidate's bytes are the request bytes of the command they decode to. -/
theorem stepRunsFrameAtCursor : Obligations.StepRunsFrameAtCursor := by
  intro s f i hwf hinputs hpass hst hf hdec
  have ⟨hlen, _, _⟩ := hf
  obtain ⟨hdev, hcase⟩ := decodeFrame_ok f i hdec
  have hstep : step s = .next (fullCandidate f s) :=
    (step_of_inputs_nil s hwf hinputs (decode_fsm_scan s hpass hst)).trans (execScanStep_of_frame hpass f hf hdev)
  rw [hstep]
  rcases hcase with ⟨hcmd, rfl⟩ | ⟨hcmd, rfl⟩
  · have hbytes := requestBytes_of_frame f hlen hdev
    rw [hcmd] at hbytes
    rw [fullCandidate, if_pos hcmd, exec, execRead_of_pass hpass, hbytes]
  · rw [fullCandidate, hcmd, if_neg (by decide), exec, execWrite_of_pass hpass]

end Sys2Proof.Machine
end

section
/-! The response (44_response_builder.md R200, R201): when it is built and handed over, and its bytes (30_encoding.md
R83). -/

namespace Sys2Proof.Machine

open Sys2Proof

/-! ### Building and handing over -/

/-- Within the table and R6's bounds the response is the one of R83's layout, and it fits the staging buffer. -/
theorem sendResponse_of_inRange (s : State) (f : List Byte) (hwf : s.cfg.wf = true) (htable : s.regs = s.cfg.regInit)
    (hrange : (startOf f).toNat + (countOf f).toNat ≤ s.cfg.tableSize) :
    ∃ body, withChecksum body = responseFor s.regs f ∧ sendResponse f s = .ok (handOver f body s) := by
  obtain ⟨-, -, htx, -⟩ := (Config.wf_iff s.cfg).1 hwf
  have hsize : s.regs.length = s.cfg.tableSize := congrArg List.length htable
  refine ⟨_, rfl, sendResponse_of_bound f s _ (buildBody_of_bound s f (hsize ▸ hrange)) ?_⟩
  simp only [withChecksum_length, responseBody_length, List.length_take, List.length_drop]
  omega

section Resolved

variable {s : State} {f : List Byte} (hst : s.st = .resolved) (hf : s.holdsFrame s.cursor f)
include hst hf

/-- `RESPONSE` with the request's own `byteCount` answers what is sent (log 13). -/
theorem execResponse_next_iff (hrange : inRange s.cfg (startOf f) (countOf f) = true) (t : State) :
    execResponse (byteCountOf (countOf f)) s = .next t ↔ sendResponse f s = .ok t := by
  have hread : frameAtCursor s = .ok f := memRead_of_holdsFrame s s.cursor f hf
  rw [execResponse, if_pos ((respondEnabled_iff s).2 hst)]
  simp only [hread, hrange, beq_self_eq_true, Bool.and_self, if_true]
  cases sendResponse f s <;> simp

/-- `RESPONSE` with any other `byteCount` (log 13). -/
theorem execResponse_of_other_count (n : Byte) (hn : n ≠ byteCountOf (countOf f)) : execResponse n s = .next s := by
  have hread : frameAtCursor s = .ok f := memRead_of_holdsFrame s s.cursor f hf
  rw [execResponse, if_pos ((respondEnabled_iff s).2 hst)]
  simp only [hread, beq_eq_false_iff_ne.2 hn, Bool.and_false, Bool.false_eq_true, if_false]

/-- `RESPOND` sends and then resets (44_response_builder.md R200). -/
theorem execRespond_of_sent (hrange : inRange s.cfg (startOf f) (countOf f) = true) {t : State}
    (hsend : sendResponse f s = .ok t) : execRespond s = .next t.fullReset := by
  have hread : frameAtCursor s = .ok f := memRead_of_holdsFrame s s.cursor f hf
  rw [execRespond, if_pos ((respondEnabled_iff s).2 hst)]
  simp only [hread, hrange, hsend, if_true]

end Resolved

/-- Settles O8: both operations send the same response. -/
theorem stepRunsResponseThenFullReset : Obligations.StepRunsResponseThenFullReset := by
  intro s t f hwf hinputs hpass hst hf hrange hx
  have hsend : sendResponse f s = .ok t := (execResponse_next_iff hst hf hrange t).1 hx
  calc step s = exec .respond s := step_of_inputs_nil s hwf hinputs (decode_fsm_respond s hpass hst)
    _ = .next t.fullReset := execRespond_of_sent hst hf hrange hsend

/-- Settles O41: the hand-over writes the response from index 0 on and touches nothing but the engine, the output
stream and the trace. -/
theorem responseIsBuiltAndHandedOver : Obligations.ResponseIsBuiltAndHandedOver := by
  intro s f n hwf htable hst hf hrange
  refine ⟨?_, execResponse_of_other_count hst hf n⟩
  rintro rfl
  obtain ⟨body, hbody, hsend⟩ := sendResponse_of_inRange s f hwf htable hrange
  refine ⟨handOver f body s, (execResponse_next_iff hst hf ((inRange_iff _ _ _).2 hrange) _).2 hsend, ?_⟩
  rw [← hbody]
  refine ⟨fun k hk => ?_, fun k hk => ?_, rfl⟩
  · simpa using Memory.read_writeAll s.txbuf 0 k (withChecksum body) hk
  · exact Memory.read_writeAll_other s.txbuf 0 k (withChecksum body) (.inr (by omega))

/-! ### The layout -/

theorem build_of_bound (s : State) (f : List Byte) (h : (startOf f).toNat + (countOf f).toNat ≤ s.regs.length) :
    build s f = .ok (responseFor s.regs f) := by
  simp only [build, buildBody_of_bound s f h, responseFor]

/-- A byte before the checksum. -/
theorem byteAt_withChecksum_of_lt (r : List Byte) (k : Nat) (h : k < r.length) :
    byteAt (withChecksum r) k = byteAt r k :=
  List.getD_append r (checksumBytes (crc16 r)) 0 k h

/-- The checksum's bytes, low byte first (R89). -/
theorem byteAt_withChecksum_last (r : List Byte) (k : Nat) :
    byteAt (withChecksum r) (r.length + k) = byteAt (checksumBytes (crc16 r)) k := by
  unfold byteAt withChecksum
  rw [List.getD_append_right _ _ _ _ (Nat.le_add_right _ k), Nat.add_sub_cancel_left]

theorem take_withChecksum (r : List Byte) : (withChecksum r).take r.length = r := List.take_left

/-- The `i`-th value's bytes, high byte first (30_encoding.md R88). -/
theorem byteAt_dataBytes (vs : List Word) (i : Nat) (v : Word) (h : vs[i]? = some v) :
    byteAt (dataBytes vs) (2 * i) = hi v ∧ byteAt (dataBytes vs) (2 * i + 1) = lo v := by
  induction vs generalizing i with
  | nil => simp at h
  | cons u us ih =>
    cases i with
    | zero => cases h; exact ⟨rfl, rfl⟩
    | succ i => exact ih i h

/-- The header's third byte (R83, R87). -/
theorem byteCountOf_toNat (count : Word) : (byteCountOf count).toNat = (2 * count.toNat) % 256 :=
  BitVec.toNat_ofNat _ 8

/-- A value's bytes in the body (R83, R88). -/
theorem byteAt_responseBody (f : List Byte) (vs : List Word) (i : Nat) (v : Word) (h : vs[i]? = some v) :
    byteAt (responseBody f vs) (3 + 2 * i) = hi v ∧ byteAt (responseBody f vs) (4 + 2 * i) = lo v := by
  rw [show 3 + 2 * i = 2 * i + 3 by omega, show 4 + 2 * i = 2 * i + 1 + 3 by omega]
  exact byteAt_dataBytes vs i v h

/-- The table's entries a request names (R88). -/
def requestedValues (regs : List Word) (f : List Byte) : List Word :=
  (regs.drop (startOf f).toNat).take (countOf f).toNat

theorem responseFor_eq (regs : List Word) (f : List Byte) :
    responseFor regs f = withChecksum (responseBody f (requestedValues regs f)) := rfl

theorem requestedValues_length (regs : List Word) (f : List Byte)
    (h : (startOf f).toNat + (countOf f).toNat ≤ regs.length) :
    (requestedValues regs f).length = (countOf f).toNat := by
  simp only [requestedValues, List.length_take, List.length_drop]
  omega

theorem requestedValues_getElem? (regs : List Word) (f : List Byte) (i : Nat) (h : i < (countOf f).toNat) :
    (requestedValues regs f)[i]? = regs[(startOf f).toNat + i]? := by
  rw [requestedValues, List.getElem?_take_of_lt h, List.getElem?_drop]

/-- Settles O42: a header of three bytes, the table's entries two bytes each, then the checksum of all of it. -/
theorem responseLayout : Obligations.ResponseLayout := by
  intro s f hbound
  have hlen : (responseBody f (requestedValues s.regs f)).length = 3 + 2 * (countOf f).toNat := by
    rw [responseBody_length, requestedValues_length s.regs f hbound]
  have hlast := byteAt_withChecksum_last (responseBody f (requestedValues s.regs f))
  rw [hlen] at hlast
  refine ⟨_, build_of_bound s f hbound, ?_, rfl, rfl, byteCountOf_toNat _, fun i v hi hv => ?_, ?_⟩ <;>
    rw [responseFor_eq]
  · rw [withChecksum_length, hlen]; omega
  · rw [byteAt_withChecksum_of_lt _ _ (by omega), byteAt_withChecksum_of_lt _ _ (by omega)]
    exact byteAt_responseBody f _ i v ((requestedValues_getElem? s.regs f i hi).trans hv)
  · rw [← hlen, take_withChecksum, hlen, show 4 + 2 * (countOf f).toNat = 3 + 2 * (countOf f).toNat + 1 by omega]
    exact ⟨hlast 0, hlast 1⟩

end Sys2Proof.Machine
end

section
/-! The Checksum Engine driven from its port (40_crc_engine.md R110 to R114; 30_encoding.md R95). -/

namespace Sys2Proof.Machine

open Sys2Proof

/-- One `CRC_BYTE` vector for each byte folds `crc_byte` over them, from whatever `crc` holds (R114). -/
theorem run_crcByte_vectors (bytes : List Byte) (s : State) (hwf : s.cfg.wf = true)
    (h : s.inputs = bytes.map fun b => Input.crc (0b01#2 ++ b)) :
    Host.Core.run Sys2Proof.core bytes.length s =
      .next { s with crc := bytes.foldl crcByte s.crc, inputs := [] } := by
  induction bytes generalizing s with
  | nil => exact congrArg _ (congrArg s.withInputs h)
  | cons b bytes ih =>
    have hstep := step_of_inputs_crc s hwf h (decode_crc_append 0b01#2 b)
    exact (run_succ_of_step _ hstep).trans (ih _ hwf rfl)

/-- Settles O18: `CRC_INIT_OP` loads the value the fold of `crc16` starts from. -/
theorem engineOperationsComputeCrc16 : Obligations.EngineOperationsComputeCrc16 := by
  intro s bytes hwf h
  have hstep := step_of_inputs_crc s hwf h (show decode (.crc 0b1000000000#10) = .ok .crcInitOp from rfl)
  exact (run_succ_of_step _ hstep).trans (run_crcByte_vectors bytes _ hwf rfl)

end Sys2Proof.Machine
end

section
/-! Every pass ends (42_frame_scanner.md R165; 70_reset_and_hazards.md R254): the scanner turns a session still needs,
which a producer vector leaves and a scanner turn lowers. -/

namespace Sys2Proof.Machine

open Sys2Proof

/-- A run of `k + m` steps is a run of `m` from where `k` steps lead. -/
theorem run_add {s t : State} (k m : Nat) (h : Host.Core.run Sys2Proof.core k s = .next t) :
    Host.Core.run Sys2Proof.core (k + m) s = Host.Core.run Sys2Proof.core m t := by
  induction k generalizing s with
  | zero => cases h; rw [Nat.zero_add]
  | succ k ih =>
    have hcore : Sys2Proof.core.step s = step s := rfl
    cases hs : step s with
    | next u =>
      rw [run_succ_of_step k hs] at h
      rw [Nat.succ_add, run_succ_of_step (k + m) hs, ih h]
    | fault e => simp [Host.Core.run, hcore, hs] at h
    | refused e => simp [Host.Core.run, hcore, hs] at h

/-! ### The turns a session still needs -/

/-- At most so many scanner turns lead to a quiescent state: in a pass one for each index up to capacity, one for the
flush or the resolution and one for the response (R165). -/
def State.turnsLeft (s : State) : Nat :=
  if s.passActive then s.cfg.cap - s.cursor + 2 else if s.st = .resolved then 1 else 0

theorem State.turnsLeft_of_pass (s : State) (h : s.passActive = true) : s.turnsLeft = s.cfg.cap - s.cursor + 2 :=
  if_pos h

theorem State.turnsLeft_of_idle (s : State) (h : s.passActive = false) :
    s.turnsLeft = if s.st = .resolved then 1 else 0 := by
  simp [State.turnsLeft, h]

theorem State.turnsLeft_le (s : State) : s.turnsLeft ≤ s.cfg.cap + 2 := by
  unfold State.turnsLeft
  split_ifs <;> omega

theorem quiescent_of_turnsLeft_zero (s : State) (h : s.turnsLeft = 0) : s.quiescent = true := by
  unfold State.turnsLeft at h
  split_ifs at h with hpass hst
  exact (quiescent_iff s).2 ⟨by simpa using hpass, hst⟩

/-- The producer writes nothing the count is made of (10_state.md R33). -/
theorem ProducerFrame.turnsLeft_eq {s t : State} (h : ProducerFrame s t) : t.turnsLeft = s.turnsLeft := by
  simp only [State.turnsLeft, h.passActive, h.cfg, h.cursor, h.st]

/-! ### A scanner turn -/

theorem execScanStep_lowers_turnsLeft (s : State) (h : s.Inv) (hpass : s.passActive = true) :
    ∃ t, execScanStep s = .next t ∧ t.turnsLeft < s.turnsLeft := by
  obtain ⟨t, hx, hcase⟩ := scanStepEndsPassOrAdvances s h hpass
  refine ⟨t, hx, ?_⟩
  rw [s.turnsLeft_of_pass hpass]
  rcases hcase with hidle | ⟨hpass', hcursor, -⟩
  · rw [t.turnsLeft_of_idle hidle]
    split_ifs <;> omega
  · have hinv := execScanStep_keeps_inv s t h hx
    have hcfg : t.cfg = s.cfg := (execScanStep_consumerFrame s t hx).cfg
    have hle := Nat.le_trans hinv.cursor_le hinv.len_le
    rw [t.turnsLeft_of_pass hpass']
    rw [hcfg] at hle ⊢
    omega

theorem execRespond_lowers_turnsLeft (s : State) (h : s.Inv) (hdrop : s.cfg.bounds = .drop)
    (hpass : s.passActive = false) (hst : s.st = .resolved) :
    ∃ t, execRespond s = .next t ∧ t.turnsLeft < s.turnsLeft := by
  obtain ⟨t, hx⟩ := h.execRespond_answers.exists_of_drop hdrop
  refine ⟨t, hx, ?_⟩
  rw [s.turnsLeft_of_idle hpass, if_pos hst]
  rcases execRespond_next s t hx with ⟨hn, -⟩ | ⟨-, f, -, ⟨-, body, -, -, rfl⟩ | ⟨-, -, rfl⟩⟩
  · exact absurd hst hn
  · exact Nat.one_pos
  · exact Nat.one_pos

/-- A scanner turn brings a session that is not quiescent nearer to it. -/
theorem step_scanner_lowers_turnsLeft (s : State) (r : List Input) (h : s.Inv) (hdrop : s.cfg.bounds = .drop)
    (hquiet : s.quiescent = false) (hin : s.inputs = .scanner :: r) :
    ∃ t, step s = .next t ∧ t.inputs = r ∧ t.cfg = s.cfg ∧ t.turnsLeft < s.turnsLeft := by
  have hr := h.withInputs r
  cases hpass : s.passActive with
  | true =>
    obtain ⟨t, hx, hlt⟩ := execScanStep_lowers_turnsLeft _ hr hpass
    have hstep := step_of_inputs_scanner s h.cfg_wf hin (decode_fsm_scan s hpass (h.pass hpass).1)
    have hframe := execScanStep_consumerFrame _ t hx
    exact ⟨t, hstep.trans hx, hframe.inputs, hframe.cfg, hlt⟩
  | false =>
    have hst : s.st = .resolved := by
      by_contra hst
      exact absurd (hquiet.symm.trans ((quiescent_iff s).2 ⟨hpass, hst⟩)) (by decide)
    obtain ⟨t, hx, hlt⟩ := execRespond_lowers_turnsLeft _ hr hdrop hpass hst
    have hstep := step_of_inputs_scanner s h.cfg_wf hin (decode_fsm_respond s hpass hst)
    have hframe := execRespond_consumerFrame _ t hx
    exact ⟨t, hstep.trans hx, hframe.inputs, hframe.cfg, hlt⟩

/-! ### A producer vector -/

/-- An `RXPORT` vector selects at most one operation of the producer at once (30_encoding.md R93). -/
theorem runWord_rx_keeps_turnsLeft (v : BitVec 10) (s : State) :
    ∃ t, runWord (.rx v) s = .next t ∧ t.inputs = s.inputs ∧ t.cfg = s.cfg ∧ t.turnsLeft = s.turnsLeft := by
  cases hdec : decode (.rx v) with
  | error e => exact ⟨s, runWord_of_decode_error _ s e hdec, rfl, rfl, rfl⟩
  | ok i =>
    rw [runWord_of_decode_ok _ s i hdec]
    rcases decodeRx_ok v i hdec with ⟨b, rfl⟩ | rfl
    · obtain ⟨t, hx⟩ := execRxPush_answers s b
      have hframe := execRxPush_producerFrame b s t hx
      exact ⟨t, hx, hframe.inputs, hframe.cfg, hframe.turnsLeft_eq⟩
    · have hframe := setErr_raise_producerFrame s .lineFault
      exact ⟨_, rfl, hframe.inputs, hframe.cfg, hframe.turnsLeft_eq⟩

/-- The step of an `RXPORT` vector leaves its rest first in the schedule (20_memory.md R63 e). -/
theorem step_rx_keeps_turnsLeft (s : State) (v : BitVec 10) (r : List Input) (h : s.Inv)
    (hin : s.inputs = .rx v :: r) :
    ∃ t, step s = .next t ∧ t.Inv ∧ t.inputs = rxRestInputs v ++ r ∧ t.cfg = s.cfg ∧ t.turnsLeft = s.turnsLeft := by
  have hstep : step s = runWord (.rx v) (s.withInputs (rxRestInputs v ++ r)) := by
    rw [step_of_wf s h.cfg_wf, stepInput, hin]
  obtain ⟨t, hx, hinputs, hcfg, hturns⟩ := runWord_rx_keeps_turnsLeft v (s.withInputs (rxRestInputs v ++ r))
  exact ⟨t, hstep.trans hx, stepKeepsInvariant s t h (hstep.trans hx), hinputs, hcfg, hturns⟩

/-- A rest has no rest of its own. -/
theorem rxRestInputs_of_rest {v v' : BitVec 10} (h : rxRest v = some v') : rxRestInputs v' = [] := by
  unfold rxRest at h
  split at h
  · cases h; exact rxRestInputs_of_none (rxRest_append 0b10#2 _)
  · cases h

/-- One or two steps do all an `RXPORT` vector selects. -/
theorem run_rx_keeps_turnsLeft (s : State) (v : BitVec 10) (r : List Input) (h : s.Inv)
    (hin : s.inputs = .rx v :: r) :
    ∃ k t, Host.Core.run Sys2Proof.core k s = .next t ∧ t.Inv ∧ t.inputs = r ∧ t.cfg = s.cfg ∧
      t.turnsLeft = s.turnsLeft := by
  obtain ⟨t, hstep, hinv, hinputs, hcfg, hturns⟩ := step_rx_keeps_turnsLeft s v r h hin
  cases hrest : rxRest v with
  | none =>
    rw [rxRestInputs_of_none hrest] at hinputs
    exact ⟨1, t, (run_one s).trans hstep, hinv, hinputs, hcfg, hturns⟩
  | some v' =>
    rw [rxRestInputs_of_some hrest] at hinputs
    obtain ⟨u, hstep', hinv', hinputs', hcfg', hturns'⟩ := step_rx_keeps_turnsLeft t v' r hinv hinputs
    rw [rxRestInputs_of_rest hrest] at hinputs'
    refine ⟨2, u, ?_, hinv', hinputs', hcfg'.trans hcfg, hturns'.trans hturns⟩
    exact (run_succ_of_step 1 hstep).trans ((run_one t).trans hstep')

/-! ### The whole schedule -/

/-- Enough scanner turns in the schedule lead to quiescence, and no more are used than the session needed. -/
theorem run_reaches_quiescence (l : List Input) (s : State) (h : s.Inv) (hdrop : s.cfg.bounds = .drop)
    (hin : s.inputs = l) (hduring : ∀ x ∈ l, x.duringPass = true) (henough : s.turnsLeft ≤ scannerTurns l) :
    ∃ k t, Host.Core.run Sys2Proof.core k s = .next t ∧ t.quiescent = true ∧
      scannerTurns l ≤ scannerTurns t.inputs + s.turnsLeft := by
  induction l generalizing s with
  | nil => exact ⟨0, s, rfl, quiescent_of_turnsLeft_zero s (Nat.le_zero.1 henough), Nat.zero_le _⟩
  | cons x r ih =>
    obtain ⟨hx, hr⟩ := List.forall_mem_cons.1 hduring
    cases x with
    | scanner =>
      have hcount : scannerTurns (.scanner :: r) = scannerTurns r + 1 := List.countP_cons_of_pos rfl
      cases hquiet : s.quiescent with
      | true => exact ⟨0, s, rfl, hquiet, by rw [hin]; exact Nat.le_add_right _ _⟩
      | false =>
        obtain ⟨t, hstep, hinputs, hcfg, hlt⟩ := step_scanner_lowers_turnsLeft s r h hdrop hquiet hin
        obtain ⟨k, u, hrun, hend, hused⟩ :=
          ih t (stepKeepsInvariant s t h hstep) (hcfg ▸ hdrop) hinputs hr (by omega)
        exact ⟨k + 1, u, (run_succ_of_step k hstep).trans hrun, hend, by omega⟩
    | rx v =>
      have hcount : scannerTurns (.rx v :: r) = scannerTurns r := List.countP_cons_of_neg (by simp)
      obtain ⟨k, t, hrun, hinv, hinputs, hcfg, hturns⟩ := run_rx_keeps_turnsLeft s v r h hin
      obtain ⟨m, u, hrun', hend, hused⟩ := ih t hinv (hcfg ▸ hdrop) hinputs hr (by omega)
      exact ⟨k + m, u, (run_add k m hrun).trans hrun', hend, by omega⟩
    | ctl | crc | cycle => cases hx

/-- Settles O54: no session needs more than `C + 2` turns. -/
theorem passReachesQuiescence : Obligations.PassReachesQuiescence := by
  intro s h hdrop hduring henough
  have hle := s.turnsLeft_le
  obtain ⟨k, t, hrun, hend, hused⟩ := run_reaches_quiescence s.inputs s h hdrop rfl hduring (hle.trans henough)
  exact ⟨k, t, hrun, hend, hused.trans (Nat.add_le_add_left hle _)⟩

end Sys2Proof.Machine
end

section
/-! The whole pass (42_frame_scanner.md R164): the steps of a pass follow the loop of `pollPass` round by round, on
states that differ in what the loop does not keep. -/

namespace Sys2Proof.Machine

open Sys2Proof

/-! ### The loop of R164, round by round -/

section Round

variable {s : State} (n : Nat)

theorem passLoop_of_end (h : s.cursor = s.len) : passLoop (n + 1) s = s.fullReset := by
  rw [passLoop, if_pos h]

theorem passLoop_of_noise (hlt : s.cursor < s.len) (hb : Memory.read s.buf s.cursor ≠ some deviceId) :
    passLoop (n + 1) s = passLoop n { s with cursor := s.cursor + 1, wait := 0 } := by
  rw [passLoop, if_neg (Nat.ne_of_lt hlt), if_pos hb]

section Candidate

variable (hlt : s.cursor < s.len) (hb : Memory.read s.buf s.cursor = some deviceId)
include hlt hb

theorem passLoop_of_incomplete (hshort : s.len < s.cursor + frameLen) :
    passLoop (n + 1) s = if s.wait + 1 = s.cfg.maxWait then s.fullReset
      else { s with wait := s.wait + 1, st := .haveCandidate } := by
  rw [passLoop, if_neg (Nat.ne_of_lt hlt), if_neg (not_not.2 hb), if_pos hshort]

theorem passLoop_of_valid (hfull : s.cursor + frameLen ≤ s.len) (hv : s.validAt s.cursor = true) :
    passLoop (n + 1) s = answerFrame s := by
  rw [passLoop, if_neg (Nat.ne_of_lt hlt), if_neg (not_not.2 hb), if_neg (Nat.not_lt.2 hfull), if_pos hv]

theorem passLoop_of_skipped (hfull : s.cursor + frameLen ≤ s.len) (hv : s.validAt s.cursor = false) :
    passLoop (n + 1) s = passLoop n { s with cursor := s.cursor + 1, wait := 0 } := by
  rw [passLoop, if_neg (Nat.ne_of_lt hlt), if_neg (not_not.2 hb), if_neg (Nat.not_lt.2 hfull),
    if_neg (Bool.eq_false_iff.1 hv)]

end Candidate

end Round

theorem pollPass_of_err (s : State) (h : s.err = true) : pollPass s = s.fullReset := if_pos h

theorem pollPass_of_short (s : State) (herr : s.err = false) (h : s.len < frameLen) : pollPass s = s := by
  rw [pollPass, if_neg (Bool.eq_false_iff.1 herr), if_pos h]

theorem pollPass_of_full (s : State) (herr : s.err = false) (h : frameLen ≤ s.len) :
    pollPass s = passLoop (s.cfg.cap + 1) s := by
  rw [pollPass, if_neg (Bool.eq_false_iff.1 herr), if_neg (Nat.not_lt.2 h)]

/-! ### What the loop keeps -/

/-- `v` is the state of R164's loop when the run is in `u`: equal in all that decides the rounds and in the output
stream; the loop itself never sets `pass_active`. -/
structure PassTwin (u v : State) : Prop where
  cfg     : v.cfg = u.cfg
  regs    : v.regs = u.regs
  buf     : v.buf = u.buf
  len     : v.len = u.len
  cursor  : v.cursor = u.cursor
  wait    : v.wait = u.wait
  err     : v.err = u.err
  outputs : v.outputs = u.outputs
  idle    : v.passActive = false

section Twin

variable {u v : State} (tw : PassTwin u v)
include tw

theorem PassTwin.memRead_eq (a n : Nat) : memRead v a n = memRead u a n := by
  unfold memRead State.length
  rw [tw.len, tw.buf]

theorem PassTwin.validAt_eq (p : Nat) : v.validAt p = u.validAt p := by
  simp only [State.validAt, tw.memRead_eq]

theorem PassTwin.frameAtCursor_eq : frameAtCursor v = frameAtCursor u := by
  simp only [frameAtCursor, tw.memRead_eq, tw.cursor]

/-- One index further on, in the run and in the loop (R154, R158, R159). -/
theorem PassTwin.advance : PassTwin u.advance { v with cursor := v.cursor + 1, wait := 0 } :=
  { tw with cursor := congrArg (· + 1) tw.cursor, wait := rfl }

theorem PassTwin.raise (e : Event) : PassTwin (u.raise e) v := { tw with }

theorem PassTwin.useEngine : PassTwin u.useEngine v := { tw with }

theorem PassTwin.resolve : PassTwin u.resolve v := { tw with }

theorem PassTwin.sameSession_fullReset : u.fullReset.SameSession v.fullReset :=
  ⟨rfl, rfl, rfl, rfl, rfl, rfl, tw.outputs.symm⟩

/-- Waiting for more bytes, in the run and in the loop (R157). -/
theorem PassTwin.sameSession_keepWaiting (e : Event) :
    (u.keepWaiting.raise e).SameSession { v with wait := v.wait + 1, st := .haveCandidate } :=
  ⟨tw.len.symm, tw.cursor.symm, congrArg (· + 1) tw.wait.symm, tw.err.symm, rfl, tw.idle.symm, tw.outputs.symm⟩

end Twin

/-! ### The end of a pass -/

/-- From `u` at most `n` steps of the scanner alone lead to a quiescent state with the session and output stream of
`r`. -/
def EndsWithin (n : Nat) (u r : State) : Prop :=
  ∃ k t, k ≤ n ∧ Host.Core.run Sys2Proof.core k u = .next t ∧ t.quiescent = true ∧ t.inputs = [] ∧ t.SameSession r

theorem EndsWithin.of_quiescent {n : Nat} {u r : State} (hquiet : u.quiescent = true) (hin : u.inputs = [])
    (hsame : u.SameSession r) : EndsWithin n u r :=
  ⟨0, u, Nat.zero_le n, rfl, hquiet, hin, hsame⟩

theorem EndsWithin.of_step {n : Nat} {u t r : State} (hstep : step u = .next t) (h : EndsWithin n t r) :
    EndsWithin (n + 1) u r := by
  obtain ⟨k, w, hk, hrun, hend⟩ := h
  exact ⟨k + 1, w, Nat.succ_le_succ hk, (run_succ_of_step k hstep).trans hrun, hend⟩

/-- An operation that ends in the full reset, where the loop does. -/
theorem EndsWithin.of_fullReset {n : Nat} {u r : State} (hin : u.inputs = []) (hsame : u.fullReset.SameSession r) :
    EndsWithin n u.fullReset r :=
  .of_quiescent rfl hin hsame

/-- The incomplete observation of the run and of the loop (R157). -/
theorem PassTwin.endsWithin_of_incomplete {u v : State} (tw : PassTwin u v) (n : Nat) (hin : u.inputs = []) :
    EndsWithin n (incompleteObservation u) (if v.wait + 1 = v.cfg.maxWait then v.fullReset
      else { v with wait := v.wait + 1, st := .haveCandidate }) := by
  have hiff : v.wait + 1 = v.cfg.maxWait ↔ u.wait + 1 = u.cfg.maxWait := by rw [tw.wait, tw.cfg]
  by_cases hw : v.wait + 1 = v.cfg.maxWait
  · rw [if_pos hw, incompleteObservation_stall u (hiff.1 hw)]
    exact .of_fullReset hin (tw.raise _).sameSession_fullReset
  · rw [if_neg hw, incompleteObservation_wait u (mt hiff.2 hw)]
    exact .of_quiescent rfl hin (tw.sameSession_keepWaiting _)

/-- A request outside the table under `DROP` (44_response_builder.md R203). -/
theorem execRespond_of_outOfRange {s : State} {f : List Byte} (hst : s.st = .resolved)
    (hf : frameAtCursor s = .ok f) (hrange : inRange s.cfg (startOf f) (countOf f) = false)
    (hdrop : s.cfg.bounds = .drop) :
    execRespond s = .next (s.raise (.requestOutOfRange (startOf f) (countOf f))).fullReset := by
  rw [execRespond, if_pos ((respondEnabled_iff s).2 hst)]
  simp only [hf, hrange, hdrop, Bool.false_eq_true, if_false]

/-- The response to a resolved frame is the loop's answer (44_response_builder.md R200). -/
theorem endsWithin_of_resolved (n : Nat) (u v : State) (h : u.Inv) (hdrop : u.cfg.bounds = .drop)
    (hin : u.inputs = []) (tw : PassTwin u v) (hpass : u.passActive = false) (hst : u.st = .resolved) :
    EndsWithin (n + 1) u (answerFrame v) := by
  obtain ⟨f, hf⟩ := h.frameAtCursor_of_resolved hst
  have hholds := holdsFrame_of_memRead u u.cursor f hf
  have hstep : step u = execRespond u := step_of_inputs_nil u h.cfg_wf hin (decode_fsm_respond u hpass hst)
  simp only [answerFrame, tw.frameAtCursor_eq, hf, tw.cfg]
  cases hrange : inRange u.cfg (startOf f) (countOf f) with
  | true =>
    obtain ⟨body, hbody, hsend⟩ := sendResponse_of_inRange u f h.cfg_wf h.table ((inRange_iff _ _ _).1 hrange)
    refine .of_step (hstep.trans (execRespond_of_sent hst hholds hrange hsend)) (.of_fullReset hin ?_)
    refine ⟨rfl, rfl, rfl, rfl, rfl, rfl, ?_⟩
    simp [hbody, tw.outputs, tw.regs]
  | false =>
    exact .of_step (hstep.trans (execRespond_of_outOfRange hst hf hrange hdrop))
      (.of_fullReset hin (tw.raise _).sameSession_fullReset)

theorem validAt_of_frame (s : State) (f : List Byte) (hf : frameAtCursor s = .ok f) :
    s.validAt s.cursor = validFrame f := by
  have hread : memRead s s.cursor frameLen = .ok f := hf
  simp only [State.validAt, hread]

theorem validFrame_of_wrong_checksum (f : List Byte) (h : verify f = false) : validFrame f = false := by
  simp only [validFrame, h, Bool.and_false]

theorem validFrame_of_other_command (f : List Byte) (h : byteAt f 1 ≠ cmdRead) : validFrame f = false := by
  simp only [validFrame, beq_eq_false_iff_ne.2 h, Bool.and_false, Bool.false_and]

/-- A pass of the run ends as `n` rounds of the loop do, where these are enough: one step a round and one for the
response (R165). -/
def FollowsLoop (n : Nat) : Prop :=
  ∀ u v : State, u.Inv → u.cfg.bounds = .drop → u.inputs = [] → PassTwin u v → u.passActive = true →
    u.len < u.cursor + n → EndsWithin (n + 1) u (passLoop n v)

section Round

variable {n : Nat} {u v : State} (ih : FollowsLoop n) (h : u.Inv) (hdrop : u.cfg.bounds = .drop)
  (hin : u.inputs = []) (tw : PassTwin u v) (hpass : u.passActive = true) (hrounds : u.len < u.cursor + (n + 1))
include ih hdrop hin tw hpass hrounds

/-- The next round starts one index further on. -/
theorem FollowsLoop.of_advance (hinv : u.advance.Inv) :
    EndsWithin (n + 1) u.advance (passLoop n { v with cursor := v.cursor + 1, wait := 0 }) :=
  ih _ _ hinv hdrop hin tw.advance hpass (by rw [State.advance_len, State.advance_cursor]; omega)

include h

/-- A full candidate is resolved and answered, or skipped (R158 to R160). -/
theorem FollowsLoop.of_fullCandidate {f : List Byte} (hlt : u.cursor < u.len)
    (hb : Memory.read u.buf u.cursor = some deviceId) (hf : frameAtCursor u = .ok f) :
    EndsWithin (n + 1) (fullCandidate f u) (passLoop (n + 1) v) := by
  have hlt' : v.cursor < v.len := by rw [tw.cursor, tw.len]; exact hlt
  have hb' : Memory.read v.buf v.cursor = some deviceId := by rw [tw.cursor, tw.buf]; exact hb
  have hfull : v.cursor + frameLen ≤ v.len := by
    rw [tw.cursor, tw.len]; exact (memRead_ok u u.cursor frameLen f hf).1
  have hvalid : v.validAt v.cursor = validFrame f := by
    rw [tw.cursor, tw.validAt_eq]; exact validAt_of_frame u f hf
  have hinv : (fullCandidate f u).Inv := h.fullCandidate f hf hlt hb
  rcases fullCandidate_cases f u with ⟨hcmd, hver, hc⟩ | ⟨-, hver, hc⟩ | ⟨hcmd, hc⟩ <;> rw [hc] at hinv ⊢
  · have hv : v.validAt v.cursor = true := by
      rw [tw.cursor, tw.validAt_eq]; exact validAt_of_candidate u f hf hb hcmd hver
    rw [passLoop_of_valid n hlt' hb' hfull hv]
    exact endsWithin_of_resolved n _ v hinv hdrop hin (tw.useEngine.resolve.raise _) rfl rfl
  · rw [passLoop_of_skipped n hlt' hb' hfull (hvalid.trans (validFrame_of_wrong_checksum f hver))]
    exact FollowsLoop.of_advance ih hdrop hin (tw.useEngine.raise _) hpass hrounds hinv
  · rw [passLoop_of_skipped n hlt' hb' hfull (hvalid.trans (validFrame_of_other_command f hcmd))]
    exact FollowsLoop.of_advance ih hdrop hin (tw.raise _) hpass hrounds hinv

/-- Whatever `SCAN_STEP` does, the loop's round does (R153). -/
theorem FollowsLoop.of_scanStep {t : State} (hx : execScanStep u = .next t) :
    EndsWithin (n + 1) t (passLoop (n + 1) v) := by
  rcases execScanStep_next u t hx with ⟨hidle, -⟩ | ⟨-, hend, rfl⟩ | ⟨-, hlt, b, hb, hcase⟩
  · exact absurd (hpass.symm.trans hidle) (by decide)
  · have hend' : v.cursor = v.len := by rw [tw.cursor, tw.len]; exact Nat.le_antisymm h.cursor_le hend
    rw [passLoop_of_end n hend']
    exact .of_fullReset hin (tw.raise _).sameSession_fullReset
  · have hlt' : v.cursor < v.len := by rw [tw.cursor, tw.len]; exact hlt
    have hb' : Memory.read v.buf v.cursor = some b := by rw [tw.cursor, tw.buf]; exact hb
    rcases hcase with ⟨hnoise, rfl⟩ | ⟨rfl, hshort, rfl⟩ | ⟨rfl, f, hf, rfl⟩
    · rw [passLoop_of_noise n hlt' (by rw [hb']; exact mt Option.some.inj hnoise)]
      exact FollowsLoop.of_advance ih hdrop hin tw hpass hrounds (h.advance hlt)
    · rw [passLoop_of_incomplete n hlt' hb' (by rw [tw.cursor, tw.len]; exact hshort)]
      exact tw.endsWithin_of_incomplete (n + 1) hin
    · exact FollowsLoop.of_fullCandidate ih h hdrop hin tw hpass hrounds hlt hb hf

end Round

theorem pass_followsLoop (n : Nat) : FollowsLoop n := by
  induction n with
  | zero => exact fun u _ h _ _ _ _ hrounds => absurd h.cursor_le (Nat.not_le.2 hrounds)
  | succ n ih =>
    intro u v h hdrop hin tw hpass hrounds
    obtain ⟨t, hx⟩ := execScanStep_answers u h
    have hstep : step u = .next t :=
      (step_of_inputs_nil u h.cfg_wf hin (decode_fsm_scan u hpass (h.pass hpass).1)).trans hx
    exact EndsWithin.of_step hstep (FollowsLoop.of_scanStep ih h hdrop hin tw hpass hrounds hx)

/-- Settles O55: the poll answers as `pollPass` does before its loop, or begins the pass that the loop follows. -/
theorem pollComputesWholePass : Obligations.PollComputesWholePass := by
  intro s h hdrop hsw hquiet hin
  obtain ⟨t, hx⟩ := execPollStart_answers (s.withInputs [])
  have hstep : step s = .next t :=
    (step_of_inputs_ctl s h.cfg_wf hin (show decode (.ctl 0b01#2) = .ok .pollStart from rfl)).trans hx
  suffices hends : EndsWithin (s.cfg.cap + 2) t (pollPass s) from EndsWithin.of_step hstep hends
  rcases execPollStart_next _ t hx with
    ⟨hbusy, -⟩ | ⟨-, herr, rfl⟩ | ⟨-, -, -, hsw', -⟩ | ⟨-, herr, hshort, -, rfl⟩ | ⟨-, herr, hlen, rfl⟩
  · exact absurd (hquiet.symm.trans hbusy) (by decide)
  · rw [pollPass_of_err s herr]
    exact .of_fullReset rfl ⟨rfl, rfl, rfl, rfl, rfl, rfl, rfl⟩
  · exact absurd (hsw.symm.trans hsw') (by decide)
  · rw [pollPass_of_short s herr hshort]
    exact .of_quiescent hquiet rfl ⟨rfl, rfl, rfl, rfl, rfl, rfl, rfl⟩
  · rw [pollPass_of_full s herr hlen]
    obtain ⟨hidle, hst⟩ := (quiescent_iff s).1 hquiet
    have hrounds : s.len < s.cursor + (s.cfg.cap + 1) := by
      have := h.len_le; omega
    exact pass_followsLoop _ _ s ((h.withInputs []).beginPass hst hlen) hdrop rfl
      ⟨rfl, rfl, rfl, rfl, rfl, rfl, rfl, rfl, hidle⟩ rfl hrounds

end Sys2Proof.Machine
end

section
/-! The functions of the Checksum Engine (40_crc_engine.md R111 to R117): the bit step bit by bit, the byte step as
eight iterations of a linear and injective function, its one-step form and the residue. -/

namespace Sys2Proof.Machine

open Sys2Proof Function

/-! ### The bit step -/

/-- A shift right that brings the polynomial in exactly when bit 0 was set (R111). -/
theorem crcBit_getLsbD (c : Word) (k : Nat) :
    (crcBit c).getLsbD k = (c.getLsbD (k + 1) ^^ (c.getLsbD 0 && crcPoly.getLsbD k)) := by
  cases h : c.getLsbD 0 with
  | false => rw [crcBit_of_low_zero c h, BitVec.getLsbD_ushiftRight, Nat.add_comm, Bool.false_and, Bool.xor_false]
  | true => rw [crcBit_of_low_one c h, BitVec.getLsbD_xor, BitVec.getLsbD_ushiftRight, Nat.add_comm, Bool.true_and]

/-- Settles O15: the polynomial has the bits 15, 13 and 0, and no bit in 1 to 12. -/
theorem crcBitEquations : Obligations.CrcBitEquations := by
  intro c
  have hpoly : ∀ k ≤ 12, 1 ≤ k → crcPoly.getLsbD k = false := by decide
  have h15 : crcPoly.getLsbD 15 = true := by decide
  have h14 : crcPoly.getLsbD 14 = false := by decide
  have h13 : crcPoly.getLsbD 13 = true := by decide
  have h0 : crcPoly.getLsbD 0 = true := by decide
  refine ⟨?_, ?_, ?_, fun k hlo hhi => ?_, ?_⟩ <;> rw [crcBit_getLsbD]
  · rw [h15, BitVec.getLsbD_of_ge c 16 (Nat.le_refl 16), Bool.and_true, Bool.false_xor]
  · rw [h14, Bool.and_false, Bool.xor_false]
  · rw [h13, Bool.and_true]
  · rw [hpoly k hhi hlo, Bool.and_false, Bool.xor_false]
  · rw [h0, Bool.and_true]

/-- Bit 15 of the result is the bit shifted out, and with it every other bit can be read back. -/
theorem crcBit_injective : Injective crcBit := by
  intro x y h
  obtain ⟨hx, -⟩ := crcBitEquations x
  obtain ⟨hy, -⟩ := crcBitEquations y
  have hlow : x.getLsbD 0 = y.getLsbD 0 := by rw [← hx, ← hy, h]
  refine BitVec.eq_of_getLsbD_eq fun i _ => ?_
  cases i with
  | zero => exact hlow
  | succ k =>
    have hk : (crcBit x).getLsbD k = (crcBit y).getLsbD k := by rw [h]
    rw [crcBit_getLsbD, crcBit_getLsbD, hlow] at hk
    exact Bool.xor_left_inj.1 hk

/-- While only zeros are shifted out, the bit steps are a shift. -/
theorem iterate_crcBit_of_low_zero (n : Nat) (c : Word) (h : ∀ k < n, c.getLsbD k = false) :
    crcBit^[n] c = c >>> n := by
  induction n with
  | zero => exact (BitVec.ushiftRight_zero c).symm
  | succ n ih =>
    have hlow : (c >>> n).getLsbD 0 = false := (BitVec.getLsbD_ushiftRight c n 0).trans (h n (Nat.lt_succ_self n))
    rw [iterate_succ_apply', ih fun k hk => h k (Nat.lt_succ_of_lt hk), crcBit_of_low_zero _ hlow,
      ← BitVec.shiftRight_add]

/-! ### The byte step -/

/-- R112 as an iteration. -/
theorem crcByte_eq_iterate (c : Word) (b : Byte) : crcByte c b = crcBit^[8] (c ^^^ b.setWidth 16) := rfl

theorem be16_xor (h l h' l' : Byte) : be16 h l ^^^ be16 h' l' = be16 (h ^^^ h') (l ^^^ l') :=
  BitVec.xor_append

theorem setWidth_eq_be16 (b : Byte) : b.setWidth 16 = be16 0#8 b :=
  BitVec.setWidth_eq_append (by decide)

/-- A byte goes into the low half (R112). -/
theorem xor_setWidth_eq_be16 (c : Word) (b : Byte) : c ^^^ b.setWidth 16 = be16 (hi c) (lo c ^^^ b) :=
  calc c ^^^ b.setWidth 16
    _ = be16 (hi c) (lo c) ^^^ be16 0#8 b := by rw [be16_hi_lo, setWidth_eq_be16]
    _ = be16 (hi c) (lo c ^^^ b) := by rw [be16_xor, BitVec.xor_zero]

theorem be16_eq_xor_setWidth (h l : Byte) : be16 h l = be16 h 0#8 ^^^ l.setWidth 16 := by
  rw [xor_setWidth_eq_be16, hi_be16, lo_be16, BitVec.zero_xor]

theorem be16_zero_ushiftRight (h : Byte) : be16 h 0#8 >>> 8 = h.setWidth 16 := by
  refine BitVec.eq_of_getLsbD_eq fun i hlt => ?_
  rw [BitVec.getLsbD_ushiftRight, be16, BitVec.getLsbD_append, if_neg (by omega), Nat.add_sub_cancel_left,
    BitVec.getLsbD_setWidth, decide_eq_true hlt, Bool.true_and]

/-- The high half passes through the eight bit steps as a shift (R115). -/
theorem iterate_crcBit_high (h : Byte) : crcBit^[8] (be16 h 0#8) = h.setWidth 16 := by
  have hlow : ∀ k < 8, (be16 h 0#8).getLsbD k = false := fun k hk => by
    rw [be16, BitVec.getLsbD_append, if_pos hk, BitVec.getLsbD_zero]
  rw [iterate_crcBit_of_low_zero 8 _ hlow, be16_zero_ushiftRight]

/-- The bit steps are linear (R115). -/
theorem iterate_crcBit_xor (n : Nat) (x y : Word) : crcBit^[n] (x ^^^ y) = crcBit^[n] x ^^^ crcBit^[n] y := by
  have hlinear : Semiconj₂ crcBit (· ^^^ ·) (· ^^^ ·) := crcBit_xor
  exact (hlinear.iterate n).eq x y

/-- Settles O19: by linearity the high half and the low half go through the bit steps apart. -/
theorem crcByteTableForm : Obligations.CrcByteTableForm := by
  intro c b
  have htable : crcByte 0#16 (lo c ^^^ b) = crcBit^[8] ((lo c ^^^ b).setWidth 16) := by
    rw [crcByte_eq_iterate, BitVec.zero_xor]
  calc crcByte c b
    _ = crcBit^[8] (be16 (hi c) (lo c ^^^ b)) := by rw [crcByte_eq_iterate, xor_setWidth_eq_be16]
    _ = crcBit^[8] (be16 (hi c) 0#8) ^^^ crcBit^[8] ((lo c ^^^ b).setWidth 16) := by
      rw [be16_eq_xor_setWidth, iterate_crcBit_xor]
    _ = (hi c).setWidth 16 ^^^ crcByte 0#16 (lo c ^^^ b) := by rw [iterate_crcBit_high, htable]

/-! ### The residue -/

/-- A byte step ends with an empty high half from one register only: the bit steps are injective. -/
theorem crcByte_eq_setWidth_iff (c : Word) (l h : Byte) : crcByte c l = h.setWidth 16 ↔ c = be16 h l :=
  calc crcByte c l = h.setWidth 16
    _ ↔ crcBit^[8] (c ^^^ l.setWidth 16) = crcBit^[8] (be16 h 0#8) := by
      rw [crcByte_eq_iterate, iterate_crcBit_high]
    _ ↔ c ^^^ l.setWidth 16 = be16 h 0#8 := (crcBit_injective.iterate 8).eq_iff
    _ ↔ c ^^^ l.setWidth 16 ^^^ l.setWidth 16 = be16 h 0#8 ^^^ l.setWidth 16 := (BitVec.xor_left_inj _).symm
    _ ↔ c = be16 h l := by rw [BitVec.xor_assoc, BitVec.xor_self, BitVec.xor_zero, ← be16_eq_xor_setWidth]

theorem crcByte_eq_zero_iff (c : Word) (b : Byte) : crcByte c b = 0 ↔ c = b.setWidth 16 := by
  rw [setWidth_eq_be16]
  exact crcByte_eq_setWidth_iff c b 0#8

/-- Two more bytes end at zero exactly when they are the register's halves, low byte first (R117). -/
theorem crc16_append_pair_eq_zero_iff (s : List Byte) (a b : Byte) :
    crc16 (s ++ [a, b]) = 0 ↔ lo (crc16 s) = a ∧ hi (crc16 s) = b := by
  rw [List.append_cons s a [b], crc16_append_byte, crc16_append_byte, crcByte_eq_zero_iff, crcByte_eq_setWidth_iff]
  constructor
  · intro h
    rw [h]
    exact ⟨lo_be16 b a, hi_be16 b a⟩
  · rintro ⟨rfl, rfl⟩
    exact (be16_hi_lo _).symm

/-- A frame's last two bytes are those that `verify` compares (R82, R190). -/
theorem take_six_append_pair (f : List Byte) (hf : f.length = 8) : f.take 6 ++ [byteAt f 6, byteAt f 7] = f := by
  have h6 : 6 < f.length := by omega
  have h7 : 7 < f.length := by omega
  have hdrop : f.drop 6 = [f[6], f[7]] := by
    rw [List.drop_eq_getElem_cons h6, List.drop_eq_getElem_cons h7, List.drop_of_length_le (Nat.le_of_eq hf)]
  rw [byteAt, byteAt, List.getD_eq_getElem f 0 h6, List.getD_eq_getElem f 0 h7, ← hdrop, List.take_append_drop]

/-- Settles O20: a zero residue says that the last two bytes are the checksum of the others, and so does R190. -/
theorem crcResidueIsZero : Obligations.CrcResidueIsZero := by
  refine ⟨fun s => (crc16_append_pair_eq_zero_iff s _ _).2 ⟨rfl, rfl⟩, fun f hf => ?_⟩
  rw [verify_iff, ← crc16_append_pair_eq_zero_iff, take_six_append_pair f hf]

/-! ### The engine's operations -/

/-- Settles O16: `crc_init` is tested first. -/
theorem crcInitOpLoadsInitialValue : Obligations.CrcInitOpLoadsInitialValue :=
  ⟨fun _ h => if_pos h, fun _ => rfl⟩

/-- Settles O17: the vector's flags select the operation, whose byte step is eight iterations. -/
theorem crcByteRunsEightBitSteps : Obligations.CrcByteRunsEightBitSteps :=
  fun _ b => ⟨decode_crc_append 0b01#2 b, rfl⟩

end Sys2Proof.Machine
end

section
/-! The producer's side of the intake buffer (41_intake_fifo.md R130 to R138): each of its operations as an equation, and
what a run of pushes leaves of an empty buffer. -/

namespace Sys2Proof.Machine

open Sys2Proof

/-! ### Single operations -/

theorem execRxPush_of_lt (b : Byte) (s : State) (h : s.len < s.cfg.cap) : execRxPush b s = .next (s.appendByte b) :=
  if_pos h

theorem execRxPush_of_full (b : Byte) (s : State) (h : s.cfg.cap ≤ s.len) :
    execRxPush b s = .next (s.setErr.raise (.bufferOverflow b)) :=
  if_neg (Nat.not_lt.2 h)

/-- Settles O22: the one cell written is the one at `len`. -/
theorem rxPushAppends : Obligations.RxPushAppends := by
  refine fun s b => ⟨decode_rx_append 0b01#2 b, fun hlt => ⟨s.appendByte b, execRxPush_of_lt b s hlt, ?_, ?_, rfl⟩⟩
  · exact Memory.read_write_same s.buf s.len b
  · exact fun a ha => Memory.read_write_other s.buf s.len a b ha

/-- Settles O23: at capacity a push is the error flag and its event. -/
theorem rxPushOverflows : Obligations.RxPushOverflows :=
  fun s b hfull => execRxPush_of_full b s hfull

/-- Settles O24: the vector's flags select the operation, which tests nothing. -/
theorem rxFaultSetsErr : Obligations.RxFaultSetsErr :=
  ⟨fun x => decode_rx_append 0b10#2 x, fun _ => rfl⟩

/-! ### A run of pushes -/

/-- `t` is what the arrival of the bytes `bs` makes of the state `s` with an empty buffer and no error: as many of them as
fit are committed in order of arrival, and one that does not fit has raised the error flag (R137, R138). -/
structure Received (s : State) (bs : List Byte) (t : State) : Prop where
  len        : t.len = min bs.length s.cfg.cap
  err        : t.err = true ↔ s.cfg.cap < bs.length
  cells      : ∀ i, i < t.len → Memory.read t.buf i = bs[i]?
  cfg        : t.cfg = s.cfg
  cursor     : t.cursor = s.cursor
  wait       : t.wait = s.wait
  st         : t.st = s.st
  passActive : t.passActive = s.passActive
  outputs    : t.outputs = s.outputs

/-- Nothing has arrived yet. -/
theorem Received.nil {s : State} (hlen : s.len = 0) (herr : s.err = false) : Received s [] s where
  len := by simp [hlen]
  err := by simp [herr]
  cells := by simp [hlen]
  cfg := rfl
  cursor := rfl
  wait := rfl
  st := rfl
  passActive := rfl
  outputs := rfl

section Arrival

variable {s t : State} {bs : List Byte} (h : Received s bs t)
include h

theorem Received.withInputs (r : List Input) : Received s bs (t.withInputs r) := { h with }

/-- While there is room, no byte has been dropped, so the next one goes to the index of its arrival. -/
theorem Received.appendByte (b : Byte) (hlt : t.len < t.cfg.cap) : Received s (bs ++ [b]) (t.appendByte b) := by
  have hlen := h.len
  have hcount : (bs ++ [b]).length = bs.length + 1 := List.length_append
  rw [h.cfg] at hlt
  have hroom : t.len = bs.length := by omega
  exact { h with
    len := by rw [State.appendByte_len]; omega
    err := by rw [State.appendByte_err, h.err]; omega
    cells := fun i hi => by
      rcases Nat.lt_succ_iff_lt_or_eq.1 hi with hi | rfl
      · rw [List.getElem?_append_left (hroom ▸ hi), ← h.cells i hi]
        exact Memory.read_write_other t.buf t.len i b (Nat.ne_of_lt hi)
      · rw [hroom, List.getElem?_concat_length, ← hroom]
        exact Memory.read_write_same t.buf t.len b }

/-- At capacity the next byte is one too many, and the committed ones stay. -/
theorem Received.overflow (b : Byte) (hfull : t.cfg.cap ≤ t.len) :
    Received s (bs ++ [b]) (t.setErr.raise (.bufferOverflow b)) := by
  have hlen := h.len
  have hcount : (bs ++ [b]).length = bs.length + 1 := List.length_append
  rw [h.cfg] at hfull
  exact { h with
    len := hlen.trans (by omega)
    err := iff_of_true rfl (by omega)
    cells := fun i hi => by
      have hi : i < t.len := hi
      rw [List.getElem?_append_left (by omega)]
      exact h.cells i hi }

theorem Received.push {u : State} (b : Byte) (hx : execRxPush b t = .next u) : Received s (bs ++ [b]) u := by
  rcases execRxPush_next b t u hx with ⟨hlt, rfl⟩ | ⟨hfull, rfl⟩
  · exact h.appendByte b hlt
  · exact h.overflow b hfull

end Arrival

/-- A vector with `rx_valid` alone set is a push, with or without room for its byte (30_encoding.md R93). -/
theorem step_of_push_vector {s : State} {r : List Input} (b : Byte) (hwf : s.cfg.wf = true)
    (h : s.inputs = .rx (0b01#2 ++ b) :: r) : step s = execRxPush b (s.withInputs r) := by
  rw [step_of_inputs_rx s hwf h (decode_rx_append 0b01#2 b), rxRestInputs_of_none (rxRest_append 0b01#2 b)]
  rfl

/-- One push vector for each byte: they all arrive, after those that had arrived before. -/
theorem Received.run_pushInputs {s t : State} {as : List Byte} (bs : List Byte) (h : Received s as t)
    (hwf : s.cfg.wf = true) (hin : t.inputs = pushInputs bs) :
    ∃ u, Host.Core.run Sys2Proof.core bs.length t = .next u ∧ Received s (as ++ bs) u := by
  induction bs generalizing as t with
  | nil => exact ⟨t, rfl, by rwa [List.append_nil]⟩
  | cons b bs ih =>
    have hstep : step t = execRxPush b (t.withInputs (pushInputs bs)) := step_of_push_vector b (h.cfg ▸ hwf) hin
    obtain ⟨u, hx⟩ := execRxPush_answers (t.withInputs (pushInputs bs)) b
    obtain ⟨v, hrun, hv⟩ := ih ((h.withInputs _).push b hx) (execRxPush_producerFrame b _ u hx).inputs
    exact ⟨v, (run_succ_of_step _ (hstep.trans hx)).trans hrun, by rwa [List.append_cons]⟩

/-- Settles O25: each push of the run adds its byte to what an empty buffer has received. -/
theorem firstCapPushesSucceed : Obligations.FirstCapPushesSucceed := by
  intro s bs hwf hlen herr hin
  obtain ⟨t, hrun, h⟩ := (Received.nil hlen herr).run_pushInputs bs hwf hin
  exact ⟨t, hrun, h.len, h.err, h.cells, h.cursor, h.wait, h.st, h.passActive, h.outputs⟩

end Sys2Proof.Machine
end

section
/-! What the scanner's own operations answer, case by case (42_frame_scanner.md R150 to R161). -/

namespace Sys2Proof.Machine

open Sys2Proof

/-! ### `POLL_START` -/

section Poll

variable {s : State} (hquiet : s.quiescent = true)
include hquiet

theorem execPollStart_of_err (herr : s.err = true) : execPollStart s = .next (s.raise .errorReset).fullReset := by
  rw [execPollStart, if_pos hquiet, if_pos herr]

variable (herr : s.err = false)
include herr

theorem execPollStart_of_short (hlen : s.len < frameLen) :
    execPollStart s = .next (if s.cfg.shortWait then incompleteObservation s else s.raise .shortBuffer) := by
  have hshort : s.length < frameLen := hlen
  rw [execPollStart, if_pos hquiet, if_neg (Bool.eq_false_iff.1 herr), if_pos hshort]
  exact (apply_ite _ _ _ _).symm

theorem execPollStart_of_full (hlen : frameLen ≤ s.len) : execPollStart s = .next s.beginPass := by
  have hfull : ¬ s.length < frameLen := Nat.not_lt.2 hlen
  rw [execPollStart, if_pos hquiet, if_neg (Bool.eq_false_iff.1 herr), if_neg hfull]

end Poll

/-- Settles O26: the error flag is tested before the buffer. -/
theorem pollWithErrorFlagResets : Obligations.PollWithErrorFlagResets :=
  fun s hpass hst herr => execPollStart_of_err ((quiescent_iff s).2 ⟨hpass, hst⟩) herr

/-- Settles O27: a short buffer is the label, or the incomplete observation with its two outcomes. -/
theorem pollWithShortBuffer : Obligations.PollWithShortBuffer := by
  intro s hpass hst herr hlen
  have hpoll : exec .pollStart s = _ := execPollStart_of_short ((quiescent_iff s).2 ⟨hpass, hst⟩) herr hlen
  refine ⟨fun hsw => ?_, fun hsw hw => ?_, fun hsw hw => ?_⟩ <;> rw [hpoll, hsw]
  · rfl
  · exact congrArg _ (incompleteObservation_wait s hw)
  · exact congrArg _ (incompleteObservation_stall s hw)

/-- Settles O28: neither the error flag nor a short buffer is in the way. -/
theorem pollBeginsPass : Obligations.PollBeginsPass :=
  fun s hpass hst herr hlen => execPollStart_of_full ((quiescent_iff s).2 ⟨hpass, hst⟩) herr hlen

/-- The vector `01` on `CTLPORT` is a poll (30_encoding.md R93). -/
theorem step_of_poll_vector {s : State} {r : List Input} (hwf : s.cfg.wf = true)
    (hin : s.inputs = .ctl 0b01#2 :: r) : step s = execPollStart (s.withInputs r) :=
  step_of_inputs_ctl s hwf hin (show decode (.ctl 0b01#2) = .ok .pollStart from rfl)

/-- With no error and enough bytes the poll begins a pass (R150). -/
theorem step_of_full_poll {s : State} {r : List Input} (hwf : s.cfg.wf = true) (hquiet : s.quiescent = true)
    (herr : s.err = false) (hlen : frameLen ≤ s.len) (hin : s.inputs = .ctl 0b01#2 :: r) :
    step s = .next (s.withInputs r).beginPass :=
  (step_of_poll_vector hwf hin).trans (execPollStart_of_full (s := s.withInputs r) hquiet herr hlen)

/-- With no error and `SHORT_WAIT = 0` the poll of a short buffer is a label (R152). -/
theorem step_of_short_poll {s : State} {r : List Input} (hwf : s.cfg.wf = true) (hquiet : s.quiescent = true)
    (herr : s.err = false) (hlen : s.len < frameLen) (hsw : s.cfg.shortWait = false)
    (hin : s.inputs = .ctl 0b01#2 :: r) : step s = .next ((s.withInputs r).raise .shortBuffer) := by
  have hpoll := execPollStart_of_short (s := s.withInputs r) hquiet herr hlen
  rw [State.withInputs_cfg, hsw] at hpoll
  exact (step_of_poll_vector hwf hin).trans hpoll

/-- Settles O30: each poll leaves the state it found but for one label, so the next one finds a short buffer too. -/
theorem shortBufferNeverTimesOut : Obligations.ShortBufferNeverTimesOut := by
  intro s m hwf hpass hst herr hlen hsw hin
  induction m generalizing s with
  | zero =>
    rw [List.replicate_zero, List.append_nil]
    exact congrArg _ (congrArg s.withInputs hin)
  | succ m ih =>
    have hpoll := step_of_short_poll hwf ((quiescent_iff s).2 ⟨hpass, hst⟩) herr hlen hsw hin
    refine (run_succ_of_step m hpoll).trans (Eq.trans (ih _ hwf hpass hst herr hlen hsw rfl) ?_)
    rw [List.replicate_succ, List.append_cons]
    rfl

/-! ### `SCAN_STEP` -/

theorem validFrame_iff (f : List Byte) :
    validFrame f = true ↔ byteAt f 0 = deviceId ∧ byteAt f 1 = cmdRead ∧ verify f = true := by
  simp [validFrame, and_assoc]

/-- The scanner's turn in a running pass (30_encoding.md R94). -/
theorem step_of_scan_turn {s : State} {r : List Input} (hwf : s.cfg.wf = true) (hpass : s.passActive = true)
    (hst : s.st ≠ .resolved) (hin : s.inputs = .scanner :: r) : step s = execScanStep (s.withInputs r) :=
  step_of_inputs_scanner s hwf hin (decode_fsm_scan s hpass hst)

section Running

variable {s : State} (hpass : s.passActive = true)
include hpass

theorem execScanStep_of_end (hend : s.len ≤ s.cursor) :
    execScanStep s = .next (s.raise (.flush s.len)).fullReset := by
  have hlen : s.length ≤ s.cursor := hend
  rw [execScanStep, if_pos ((scanEnabled_iff s).2 hpass), if_pos hlen]
  rfl

/-- Below the end the byte at the cursor decides first. -/
theorem execScanStep_of_noise {b : Byte} (hlt : s.cursor < s.len) (hb : Memory.read s.buf s.cursor = some b)
    (hnoise : b ≠ deviceId) : execScanStep s = .next s.advance := by
  have hlen : ¬ s.length ≤ s.cursor := Nat.not_le.2 hlt
  rw [execScanStep, if_pos ((scanEnabled_iff s).2 hpass), if_neg hlen]
  simp only [bufRead_of_cell s s.cursor b hlt hb, if_pos hnoise]

theorem execScanStep_of_incomplete (hlt : s.cursor < s.len) (hb : Memory.read s.buf s.cursor = some deviceId)
    (hshort : s.len < s.cursor + frameLen) : execScanStep s = .next (incompleteObservation s) := by
  have hlen : ¬ s.length ≤ s.cursor := Nat.not_le.2 hlt
  have hfew : s.length < s.cursor + frameLen := hshort
  rw [execScanStep, if_pos ((scanEnabled_iff s).2 hpass), if_neg hlen]
  simp only [bufRead_of_cell s s.cursor deviceId hlt hb, ne_eq, not_true_eq_false, if_false, if_pos hfew]

variable {f : List Byte} (hf : s.holdsFrame s.cursor f)
include hf

theorem execScanStep_of_read (hdev : byteAt f 0 = deviceId) (hcmd : byteAt f 1 = cmdRead) :
    execScanStep s = .next (readCandidate f s) := by
  rw [execScanStep_of_frame hpass f hf hdev, fullCandidate, if_pos hcmd]

theorem execScanStep_of_validFrame (hv : validFrame f = true) :
    execScanStep s = .next (s.useEngine.resolve.raise (.frameValid s.cursor)) := by
  obtain ⟨hdev, hcmd, hver⟩ := (validFrame_iff f).1 hv
  rw [execScanStep_of_read hpass hf hdev hcmd, readCandidate_valid f s hver]

end Running

/-- Settles O31: the byte is noise, and the cursor moves past it. -/
theorem scanSkipsNoise : Obligations.ScanSkipsNoise :=
  fun _ _ hpass hlt hb hnoise => execScanStep_of_noise hpass hlt hb hnoise

/-- Settles O32: the candidate is observed incomplete, with the two outcomes of the observation. -/
theorem scanWaitsOrStalls : Obligations.ScanWaitsOrStalls := by
  intro s hpass hlt hb hshort
  have hscan : exec .scanStep s = _ := execScanStep_of_incomplete hpass hlt hb hshort
  exact ⟨fun hw => hscan.trans (congrArg _ (incompleteObservation_wait s hw)),
    fun hw => hscan.trans (congrArg _ (incompleteObservation_stall s hw))⟩

/-- Settles O33: the candidate is a read that does not verify. -/
theorem scanSkipsFalseMatch : Obligations.ScanSkipsFalseMatch :=
  fun s f hpass hf hdev hcmd hver =>
    ⟨_, _, (execScanStep_of_read hpass hf hdev hcmd).trans (congrArg _ (readCandidate_invalid f s hver))⟩

/-- Settles O34: the command byte is tested before the checksum. -/
theorem scanSkipsUnrecognizedCommand : Obligations.ScanSkipsUnrecognizedCommand :=
  fun _ f hpass hf hdev hcmd => (execScanStep_of_frame hpass f hf hdev).trans (congrArg _ (if_neg hcmd))

/-- Settles O35: the candidate is a valid frame. -/
theorem scanResolvesValidFrame : Obligations.ScanResolvesValidFrame :=
  fun _ f hpass hf hdev hcmd hver =>
    ⟨_, _, execScanStep_of_validFrame hpass hf ((validFrame_iff f).2 ⟨hdev, hcmd, hver⟩)⟩

/-- Settles O36: the end is tested before any byte is read. -/
theorem scanFlushesAtEnd : Obligations.ScanFlushesAtEnd :=
  fun _ hpass hend => execScanStep_of_end hpass hend

end Sys2Proof.Machine
end

section
/-! What reaches the output stream (42_frame_scanner.md R170): only `RESPOND` and `RESET` write it, and only for the
resolved frame at the cursor. -/

namespace Sys2Proof.Machine

open Sys2Proof

/-- `t` has one more entry on the output stream than `s`: the response to the resolved frame at the cursor, a valid
in-range read, or the part of it that had left when `RESET` came (93_implementation_defined.md U8). -/
def AnswersRequest (s t : State) : Prop :=
  s.st = .resolved ∧ ∃ f, s.holdsFrame s.cursor f ∧ byteAt f 0 = deviceId ∧ byteAt f 1 = cmdRead ∧
    verify f = true ∧ (startOf f).toNat + (countOf f).toNat ≤ s.cfg.tableSize ∧
    (t.outputs = s.outputs ++ [.tx (responseFor s.regs f)] ∨
      ∃ k, t.outputs = s.outputs ++ [.txCut ((responseFor s.regs f).take k)])

/-! ### Operations that leave the stream alone -/

theorem incompleteObservation_outputs (s : State) : (incompleteObservation s).outputs = s.outputs := by
  unfold incompleteObservation
  split <;> rfl

theorem fullCandidate_outputs (f : List Byte) (s : State) : (fullCandidate f s).outputs = s.outputs := by
  rcases fullCandidate_cases f s with ⟨-, -, hc⟩ | ⟨-, -, hc⟩ | ⟨-, hc⟩ <;> rw [hc] <;> rfl

theorem execPollStart_outputs (s t : State) (h : execPollStart s = .next t) : t.outputs = s.outputs := by
  rcases execPollStart_next s t h with
    ⟨-, rfl⟩ | ⟨-, -, rfl⟩ | ⟨-, -, -, -, rfl⟩ | ⟨-, -, -, -, rfl⟩ | ⟨-, -, -, rfl⟩
  · rfl
  · rfl
  · exact incompleteObservation_outputs s
  · rfl
  · rfl

theorem execScanStep_outputs (s t : State) (h : execScanStep s = .next t) : t.outputs = s.outputs := by
  rcases execScanStep_next s t h with ⟨-, rfl⟩ | ⟨-, -, rfl⟩ | ⟨-, -, b, -, hcase⟩
  · rfl
  · rfl
  · rcases hcase with ⟨-, rfl⟩ | ⟨-, -, rfl⟩ | ⟨-, f, -, rfl⟩
    · rfl
    · exact incompleteObservation_outputs s
    · exact fullCandidate_outputs f s

/-! ### Operations that answer -/

section Inv

variable {s t : State} (h : s.Inv)
include h

/-- The frame a resolved session answers is the valid one R31 d says it holds. -/
theorem State.Inv.answersRequest_of_frame {f : List Byte} (hst : s.st = .resolved) (hf : frameAtCursor s = .ok f)
    (hrange : inRange s.cfg (startOf f) (countOf f) = true)
    (hout : t.outputs = s.outputs ++ [.tx (responseFor s.regs f)] ∨
      ∃ k, t.outputs = s.outputs ++ [.txCut ((responseFor s.regs f).take k)]) : AnswersRequest s t := by
  have hvalid : validFrame f = true := (validAt_of_frame s f hf).symm.trans (h.resolved hst)
  obtain ⟨hdev, hcmd, hver⟩ := (validFrame_iff f).1 hvalid
  exact ⟨hst, f, holdsFrame_of_memRead s s.cursor f hf, hdev, hcmd, hver, (inRange_iff _ _ _).1 hrange, hout⟩

/-- An in-range request names entries that the table has (44_response_builder.md R203; 20_memory.md R57). -/
theorem State.Inv.request_le_table {f : List Byte} (hrange : inRange s.cfg (startOf f) (countOf f) = true) :
    (startOf f).toNat + (countOf f).toNat ≤ s.regs.length := by
  rw [h.table]
  exact (inRange_iff _ _ _).1 hrange

theorem State.Inv.execRespond_outputs (hx : execRespond s = .next t) :
    t.outputs = s.outputs ∨ AnswersRequest s t := by
  rcases execRespond_next s t hx with ⟨-, rfl⟩ | ⟨hst, f, hf, hcase⟩
  · exact .inl rfl
  · rcases hcase with ⟨hrange, body, hbody, -, rfl⟩ | ⟨-, -, rfl⟩
    · have hbuilt := buildBody_of_bound s f (h.request_le_table hrange)
      cases hbody.symm.trans hbuilt
      exact .inr (h.answersRequest_of_frame hst hf hrange (.inl rfl))
    · exact .inl rfl

theorem State.Inv.execReset_outputs (hx : execReset s = .next t) :
    t.outputs = s.outputs ∨ AnswersRequest s t := by
  rcases execReset_next s t hx with rfl | ⟨r, hr, rfl⟩
  · exact .inl rfl
  · obtain ⟨hst, f, hf, hrange, hbuild⟩ := pendingResponse_some s r hr
    cases hbuild.symm.trans (build_of_bound s f (h.request_le_table hrange))
    exact .inr (h.answersRequest_of_frame hst hf hrange (.inr ⟨_, rfl⟩))

end Inv

theorem StepCase.outputs {s t : State} (hcase : StepCase s t) (h : s.Inv) :
    t.outputs = s.outputs ∨ AnswersRequest s t := by
  cases hcase with
  | idle ht => exact .inl (ht ▸ rfl)
  | reset hx => exact h.execReset_outputs hx
  | poll hx => exact .inl (execPollStart_outputs s t hx)
  | push b hx => exact .inl (execRxPush_producerFrame b s t hx).outputs
  | fault hx => cases hx; exact .inl rfl
  | scan _ _ hx => exact .inl (execScanStep_outputs s t hx)
  | respond _ _ hx => exact h.execRespond_outputs hx
  | crcInit hx => cases hx; exact .inl rfl
  | crcByte b hx => cases hx; exact .inl rfl

/-- Settles O50: the operations that write the stream do so for a resolved frame, which R31 d says is a valid read. -/
theorem onlyValidReadsAreAnswered : Obligations.OnlyValidReadsAreAnswered := by
  intro s t h hstep
  obtain ⟨-, r, hcase⟩ := step_next s t hstep
  exact hcase.outputs (h.withInputs r)

end Sys2Proof.Machine
end

section
/-! Framing recovery (42_frame_scanner.md R167): a running pass moves its cursor up to the first valid frame,
whatever the producer does meanwhile. -/

namespace Sys2Proof.Machine

open Sys2Proof

/-- The pass that started on `s` is on its way to the frame at `p`: the cursor is not beyond it, nothing has been
answered, and the bytes committed at its start are still there. -/
structure Seeking (s : State) (p : Nat) (t : State) : Prop where
  inv        : t.Inv
  passActive : t.passActive = true
  outputs    : t.outputs = s.outputs
  cursor_ge  : s.cursor ≤ t.cursor
  cursor_le  : t.cursor ≤ p
  len_le     : s.len ≤ t.len
  cells      : agreeBelow s.buf t.buf s.len

/-- Where the pass ends: resolved at the frame at `p`, nothing answered. -/
structure ResolvedAt (s : State) (p : Nat) (t : State) : Prop where
  st         : t.st = .resolved
  cursor     : t.cursor = p
  passActive : t.passActive = false
  len_le     : s.len ≤ t.len
  outputs    : t.outputs = s.outputs

/-- Eight committed bytes are a valid frame as long as they stay committed (20_memory.md R58). -/
theorem validAt_congr {s t : State} {p : Nat} (hle : p + frameLen ≤ s.len) (hlen : s.len ≤ t.len)
    (hcells : agreeBelow s.buf t.buf s.len) : t.validAt p = s.validAt p := by
  have hs : memRead s p frameLen = readCells s.buf p frameLen := if_pos hle
  have ht : memRead t p frameLen = readCells t.buf p frameLen := if_pos (Nat.le_trans hle hlen)
  have hread := readCells_congr s.buf t.buf p frameLen fun i hi => hcells i (Nat.lt_of_lt_of_le hi hle)
  simp only [State.validAt, hs, ht, hread]

theorem validAt_le {s : State} {p : Nat} (h : s.validAt p = true) : p + frameLen ≤ s.len := by
  obtain ⟨f, ⟨-, hle, -⟩, -⟩ := (validAt_iff s p).1 h
  exact hle

/-- An `RXPORT` vector runs at most one operation of the producer at once (30_encoding.md R93). -/
theorem runWord_rx_producerFrame (v : BitVec 10) (s : State) :
    ∃ t, runWord (.rx v) s = .next t ∧ ProducerFrame s t := by
  cases hdec : decode (.rx v) with
  | error e =>
    exact ⟨s, runWord_of_decode_error _ s e hdec, rfl, rfl, rfl, rfl, rfl, rfl, rfl, rfl, rfl, rfl, id, .inl rfl,
      fun _ _ => rfl⟩
  | ok i =>
    rw [runWord_of_decode_ok _ s i hdec]
    rcases decodeRx_ok v i hdec with ⟨b, rfl⟩ | rfl
    · obtain ⟨t, hx⟩ := execRxPush_answers s b
      exact ⟨t, hx, execRxPush_producerFrame b s t hx⟩
    · exact ⟨_, rfl, setErr_raise_producerFrame s .lineFault⟩

section Seeking

variable {s u : State} {p : Nat} (h : Seeking s p u)
include h

theorem Seeking.withInputs (r : List Input) : Seeking s p (u.withInputs r) := { h with inv := h.inv.withInputs r }

theorem Seeking.raise (e : Event) : Seeking s p (u.raise e) := { h with inv := h.inv.raise e }

theorem Seeking.useEngine : Seeking s p u.useEngine := { h with inv := h.inv.useEngine }

/-- The producer only adds bytes above those already committed (10_state.md R33). -/
theorem Seeking.of_producerFrame {t : State} (hframe : ProducerFrame u t) (hinv : t.Inv) : Seeking s p t where
  inv := hinv
  passActive := hframe.passActive.trans h.passActive
  outputs := hframe.outputs.trans h.outputs
  cursor_ge := hframe.cursor.symm ▸ h.cursor_ge
  cursor_le := hframe.cursor.symm ▸ h.cursor_le
  len_le := by
    have := h.len_le
    have := hframe.len
    omega
  cells i hi := (h.cells i hi).trans (hframe.cells i (Nat.ne_of_lt (Nat.lt_of_lt_of_le hi h.len_le))).symm

theorem Seeking.step_rx {v : BitVec 10} {r : List Input} (hin : u.inputs = .rx v :: r) :
    ∃ t, step u = .next t ∧ Seeking s p t ∧ t.cursor = u.cursor ∧ t.inputs = rxRestInputs v ++ r := by
  have hstep : step u = runWord (.rx v) (u.withInputs (rxRestInputs v ++ r)) := by
    rw [step_of_wf u h.inv.cfg_wf, stepInput, hin]
  obtain ⟨t, hx, hframe⟩ := runWord_rx_producerFrame v (u.withInputs (rxRestInputs v ++ r))
  have hinv : t.Inv := stepKeepsInvariant u t h.inv (hstep.trans hx)
  exact ⟨t, hstep.trans hx, (h.withInputs _).of_producerFrame hframe hinv, hframe.cursor, hframe.inputs⟩

/-- One or two steps do all an `RXPORT` vector selects (20_memory.md R63 e). -/
theorem Seeking.run_rx {v : BitVec 10} {r : List Input} (hin : u.inputs = .rx v :: r) :
    ∃ k t, Host.Core.run Sys2Proof.core k u = .next t ∧ Seeking s p t ∧ t.cursor = u.cursor ∧ t.inputs = r := by
  obtain ⟨t, hstep, ht, hcursor, hinputs⟩ := h.step_rx hin
  cases hrest : rxRest v with
  | none =>
    rw [rxRestInputs_of_none hrest] at hinputs
    exact ⟨1, t, (run_one u).trans hstep, ht, hcursor, hinputs⟩
  | some v' =>
    rw [rxRestInputs_of_some hrest] at hinputs
    obtain ⟨w, hstep', hw, hcursor', hinputs'⟩ := ht.step_rx hinputs
    rw [rxRestInputs_of_rest hrest] at hinputs'
    exact ⟨2, w, (run_succ_of_step 1 hstep).trans ((run_one t).trans hstep'), hw, hcursor'.trans hcursor, hinputs'⟩

theorem Seeking.advance (hlt : u.cursor < p) (hcommitted : u.cursor < u.len) : Seeking s p u.advance :=
  { h with
    inv := h.inv.advance hcommitted
    cursor_ge := Nat.le_succ_of_le h.cursor_ge
    cursor_le := hlt }

/-- Before the frame, eight bytes that are no valid frame are noise or a candidate to skip (R154, R158, R159). -/
theorem Seeking.execScanStep_advances (hlt : u.cursor < p) (hfull : u.cursor + frameLen ≤ u.len)
    (hinvalid : u.validAt u.cursor = false) :
    ∃ t, execScanStep u = .next t ∧ Seeking s p t ∧ t.cursor = u.cursor + 1 ∧ t.inputs = u.inputs := by
  have hcommitted : u.cursor < u.len := Nat.lt_of_lt_of_le (Nat.lt_add_of_pos_right (by decide)) hfull
  obtain ⟨t, hx⟩ := execScanStep_answers u h.inv
  rcases execScanStep_next u t hx with ⟨hidle, -⟩ | ⟨-, hend, -⟩ | ⟨-, -, b, hb, hcase⟩
  · exact absurd (h.passActive.symm.trans hidle) (by decide)
  · exact absurd hcommitted (Nat.not_lt.2 hend)
  · rcases hcase with ⟨-, rfl⟩ | ⟨-, hshort, -⟩ | ⟨rfl, f, hf, rfl⟩
    · exact ⟨_, hx, h.advance hlt hcommitted, rfl, rfl⟩
    · exact absurd hshort (Nat.not_lt.2 hfull)
    · rcases fullCandidate_cases f u with ⟨hcmd, hver, -⟩ | ⟨-, -, hc⟩ | ⟨-, hc⟩
      · exact absurd (hinvalid.symm.trans (validAt_of_candidate u f hf hb hcmd hver)) (by decide)
      · exact ⟨_, hx.trans (congrArg _ hc), (h.useEngine.raise _).advance hlt hcommitted, rfl, rfl⟩
      · exact ⟨_, hx.trans (congrArg _ hc), (h.raise _).advance hlt hcommitted, rfl, rfl⟩

/-- At the frame the pass resolves (R160). -/
theorem Seeking.execScanStep_resolves (hcursor : u.cursor = p) (hvalid : u.validAt u.cursor = true) :
    ∃ t, execScanStep u = .next t ∧ ResolvedAt s p t ∧ t.inputs = u.inputs := by
  obtain ⟨f, hf, hv⟩ := (validAt_iff u u.cursor).1 hvalid
  exact ⟨_, execScanStep_of_validFrame h.passActive hf hv, ⟨rfl, hcursor, rfl, h.len_le, h.outputs⟩, rfl⟩

end Seeking

section Schedule

variable {s : State} {p : Nat} (hvalid : s.validAt p = true)
  (hfirst : ∀ q, s.cursor ≤ q → q < p → s.validAt q = false)
include hvalid hfirst

/-- A scanner turn resolves the frame at `p` or brings the cursor one index nearer to it. -/
theorem Seeking.scanner_turn {u : State} {r : List Input} (h : Seeking s p u) (hin : u.inputs = .scanner :: r) :
    ∃ t, step u = .next t ∧ t.inputs = r ∧
      (u.cursor = p ∧ ResolvedAt s p t ∨ u.cursor < p ∧ Seeking s p t ∧ t.cursor = u.cursor + 1) := by
  have hle := validAt_le hvalid
  have hcommitted : u.cursor + frameLen ≤ s.len := Nat.le_trans (Nat.add_le_add_right h.cursor_le _) hle
  have hsame : u.validAt u.cursor = s.validAt u.cursor := validAt_congr hcommitted h.len_le h.cells
  have hr := h.withInputs r
  rw [step_of_scan_turn h.inv.cfg_wf h.passActive (h.inv.pass h.passActive).1 hin]
  rcases Nat.lt_or_eq_of_le h.cursor_le with hlt | hcursor
  · have hinvalid := hsame.trans (hfirst u.cursor h.cursor_ge hlt)
    obtain ⟨t, hx, ht, hcur, hinputs⟩ :=
      hr.execScanStep_advances hlt (Nat.le_trans hcommitted h.len_le) hinvalid
    exact ⟨t, hx, hinputs, .inr ⟨hlt, ht, hcur⟩⟩
  · obtain ⟨t, hx, ht, hinputs⟩ := hr.execScanStep_resolves hcursor (hsame.trans (hcursor ▸ hvalid))
    exact ⟨t, hx, hinputs, .inl ⟨hcursor, ht⟩⟩

/-- One turn for each index before the frame, and one for the frame. -/
theorem Seeking.run_resolves (l : List Input) {u : State} (h : Seeking s p u) (hin : u.inputs = l)
    (hduring : ∀ x ∈ l, x.duringPass = true) (henough : p - u.cursor + 1 ≤ scannerTurns l) :
    ∃ k t, Host.Core.run Sys2Proof.core k u = .next t ∧ ResolvedAt s p t ∧
      scannerTurns l = scannerTurns t.inputs + (p - u.cursor + 1) := by
  induction l generalizing u with
  | nil => exact absurd henough (Nat.not_succ_le_zero _)
  | cons x r ih =>
    obtain ⟨hx, hr⟩ := List.forall_mem_cons.1 hduring
    cases x with
    | scanner =>
      have hcount : scannerTurns (.scanner :: r) = scannerTurns r + 1 := List.countP_cons_of_pos rfl
      obtain ⟨t, hstep, hinputs, ⟨hcursor, ht⟩ | ⟨hlt, ht, hcursor⟩⟩ := h.scanner_turn hvalid hfirst hin
      · exact ⟨1, t, (run_one u).trans hstep, ht, by rw [hinputs]; omega⟩
      · obtain ⟨k, w, hrun, hw, hused⟩ := ih ht hinputs hr (by omega)
        exact ⟨k + 1, w, (run_succ_of_step k hstep).trans hrun, hw, by omega⟩
    | rx v =>
      have hcount : scannerTurns (.rx v :: r) = scannerTurns r := List.countP_cons_of_neg (by simp)
      obtain ⟨k, t, hrun, ht, hcursor, hinputs⟩ := h.run_rx hin
      obtain ⟨m, w, hrun', hw, hused⟩ := ih ht hinputs hr (by omega)
      exact ⟨k + m, w, (run_add k m hrun).trans hrun', hw, by omega⟩
    | ctl | crc | cycle => cases hx

end Schedule

/-- Settles O56: the poll begins a pass at the cursor, and the pass finds the frame. -/
theorem passFindsFirstValidFrame : Obligations.PassFindsFirstValidFrame := by
  intro s p l h hquiet herr hin hduring henough hle hvalid hfirst
  have hlen : frameLen ≤ s.len := Nat.le_trans (Nat.le_add_left _ _) (validAt_le hvalid)
  have hstart : Seeking s p (s.withInputs l).beginPass :=
    ⟨(h.withInputs l).beginPass ((quiescent_iff s).1 hquiet).2 hlen, rfl, rfl, Nat.le_refl _, hle, Nat.le_refl _,
      fun _ _ => rfl⟩
  obtain ⟨k, t, hrun, ht, hused⟩ := hstart.run_resolves hvalid hfirst l rfl hduring henough
  have hpoll := step_of_full_poll h.cfg_wf hquiet herr hlen hin
  exact ⟨k + 1, t, (run_succ_of_step k hpoll).trans hrun, ht.st, ht.cursor, ht.passActive, ht.len_le, ht.outputs,
    hused⟩

end Sys2Proof.Machine
end

section
/-! The observations of an incomplete candidate (42_frame_scanner.md R157, R168, R169): each poll with its scanner turn
is one, and the bytes that complete the candidate in time are found at its own position. -/

namespace Sys2Proof.Machine

open Sys2Proof

/-- A quiescent session that a poll makes observe the incomplete candidate at its cursor. -/
structure IncompleteCandidate (s : State) : Prop where
  wf       : s.cfg.wf = true
  quiet    : s.quiescent = true
  err      : s.err = false
  len_ge   : frameLen ≤ s.len
  cursor   : s.cursor < s.len
  short    : s.len < s.cursor + frameLen
  deviceId : Memory.read s.buf s.cursor = some deviceId

/-! ### One observation -/

theorem observeInputs_succ (m : Nat) : observeInputs (m + 1) = observeInputs m ++ observeInputs 1 := by
  simp [observeInputs, List.replicate_succ', List.flatten_append]

/-- A poll of a quiescent session with enough bytes begins a pass, and the scanner's turn is its first step. -/
theorem run_poll_and_scan {s t : State} {r : List Input} (hwf : s.cfg.wf = true) (hquiet : s.quiescent = true)
    (herr : s.err = false) (hlen : frameLen ≤ s.len) (hin : s.inputs = observeInputs 1 ++ r)
    (hx : execScanStep (s.withInputs r).beginPass = .next t) : Host.Core.run Sys2Proof.core 2 s = .next t := by
  have hpoll := step_of_full_poll hwf hquiet herr hlen hin
  have hst := ((quiescent_iff s).1 hquiet).2
  have hturn := step_of_scan_turn (s := (s.withInputs (.scanner :: r)).beginPass) hwf rfl hst rfl
  exact (run_succ_of_step 1 hpoll).trans ((run_one _).trans (hturn.trans hx))

/-- One observation, counted or the last (R157). -/
theorem IncompleteCandidate.run_observe {s : State} {r : List Input} (h : IncompleteCandidate s)
    (hin : s.inputs = observeInputs 1 ++ r) :
    Host.Core.run Sys2Proof.core 2 s = .next (incompleteObservation (s.withInputs r).beginPass) :=
  run_poll_and_scan h.wf h.quiet h.err h.len_ge hin
    (execScanStep_of_incomplete (s := (s.withInputs r).beginPass) rfl h.cursor h.deviceId h.short)

/-! ### Several observations -/

/-- `t` is what `n` observations leave of `s`: the session as it was, waiting, the observations counted. -/
structure Observed (s : State) (n : Nat) (t : State) : Prop where
  candidate : IncompleteCandidate t
  cfg       : t.cfg = s.cfg
  buf       : t.buf = s.buf
  len       : t.len = s.len
  cursor    : t.cursor = s.cursor
  wait      : t.wait = s.wait + n
  outputs   : t.outputs = s.outputs
  st        : 0 < n → t.st = .haveCandidate

theorem Observed.zero {s : State} (h : IncompleteCandidate s) : Observed s 0 s :=
  ⟨h, rfl, rfl, rfl, rfl, rfl, rfl, nofun⟩

theorem Observed.succ {s u : State} {n : Nat} (h : Observed s n u) (r : List Input) (e : Event) :
    Observed s (n + 1) ((u.withInputs r).beginPass.keepWaiting.raise e) :=
  { h with
    candidate := { h.candidate with quiet := rfl }
    wait := congrArg (· + 1) h.wait
    st := fun _ => rfl }

/-- Fewer than `MAX_WAIT` observations keep the session (R157, second branch). -/
theorem run_observations {s : State} (m : Nat) {r : List Input} (h : IncompleteCandidate s)
    (hlt : s.wait + m < s.cfg.maxWait) (hin : s.inputs = observeInputs m ++ r) :
    ∃ t : State, Host.Core.run Sys2Proof.core (2 * m) s = .next t ∧ Observed s m t ∧ t.inputs = r := by
  induction m generalizing r with
  | zero => exact ⟨s, rfl, .zero h, hin⟩
  | succ m ih =>
    rw [observeInputs_succ, List.append_assoc] at hin
    obtain ⟨u, hrun, hu, hinputs⟩ := ih (by omega) hin
    have hwait : u.wait + 1 ≠ u.cfg.maxWait := by rw [hu.wait, hu.cfg]; omega
    have hobserve := hu.candidate.run_observe hinputs
    rw [incompleteObservation_wait (u.withInputs r).beginPass hwait] at hobserve
    exact ⟨_, (run_add (2 * m) 2 hrun).trans hobserve, hu.succ r _, rfl⟩

/-- The observation that reaches `MAX_WAIT` resets the session (R157, first branch; R162). -/
theorem run_observations_to_stall {s : State} (m : Nat) {r : List Input} (h : IncompleteCandidate s)
    (hmax : s.wait + (m + 1) = s.cfg.maxWait) (hin : s.inputs = observeInputs (m + 1) ++ r) :
    ∃ t : State, Host.Core.run Sys2Proof.core (2 * (m + 1)) s = .next t.fullReset ∧ t.inputs = r ∧
      t.outputs = s.outputs := by
  rw [observeInputs_succ, List.append_assoc] at hin
  obtain ⟨u, hrun, hu, hinputs⟩ := run_observations m h (by omega) hin
  have hwait : u.wait + 1 = u.cfg.maxWait := by rw [hu.wait, hu.cfg]; omega
  have hobserve := hu.candidate.run_observe hinputs
  rw [incompleteObservation_stall (u.withInputs r).beginPass hwait] at hobserve
  exact ⟨_, (run_add (2 * m) 2 hrun).trans hobserve, rfl, hu.outputs⟩

/-- Settles O57: the observations count up, and the one that reaches `MAX_WAIT` is the stall timeout. -/
theorem stallTimeoutAfterMaxWait : Obligations.StallTimeoutAfterMaxWait := by
  intro s m h hquiet herr hlen hwait hcursor hshort hdev hle hin
  have hcand : IncompleteCandidate s := ⟨h.cfg_wf, hquiet, herr, hlen, hcursor, hshort, hdev⟩
  rw [← List.append_nil (observeInputs m)] at hin
  rcases Nat.lt_or_eq_of_le hle with hlt | hmax
  · obtain ⟨t, hrun, ht, hinputs⟩ := run_observations m hcand (by omega) hin
    have hcount : t.wait = m := by rw [ht.wait, hwait, Nat.zero_add]
    exact ⟨t, hrun, hinputs, ht.outputs, fun _ => ⟨hcount, ht.len, ht.cursor, ht.st⟩,
      fun hmax => absurd hmax (Nat.ne_of_lt hlt)⟩
  · have hpos := h.maxWait_pos
    obtain ⟨n, rfl⟩ : ∃ n, m = n + 1 := ⟨m - 1, by omega⟩
    obtain ⟨t, hrun, hinputs, houtputs⟩ := run_observations_to_stall n hcand (by omega) hin
    exact ⟨_, hrun, hinputs, houtputs, fun hlt => absurd hmax (Nat.ne_of_lt hlt), fun _ => ⟨rfl, rfl, rfl, rfl⟩⟩

/-! ### The bytes that complete the candidate -/

/-- The bytes `bs` committed one after the other (41_intake_fifo.md R130). -/
def State.appendBytes (s : State) (bs : List Byte) : State :=
  { s with buf := Memory.writeAll s.buf s.len bs, len := s.len + bs.length }

theorem State.appendBytes_cons (s : State) (b : Byte) (bs : List Byte) :
    s.appendBytes (b :: bs) = (s.appendByte b).appendBytes bs := by
  have hlen : s.len + (b :: bs).length = s.len + 1 + bs.length := by rw [List.length_cons]; omega
  simp only [State.appendBytes, hlen]
  rfl

/-- Push vectors within capacity commit their bytes. -/
theorem run_pushes (bs : List Byte) {s : State} {r : List Input} (hwf : s.cfg.wf = true)
    (hroom : s.len + bs.length ≤ s.cfg.cap) (hin : s.inputs = pushInputs bs ++ r) :
    Host.Core.run Sys2Proof.core bs.length s = .next ((s.withInputs r).appendBytes bs) := by
  induction bs generalizing s with
  | nil => exact congrArg _ (congrArg s.withInputs hin)
  | cons b bs ih =>
    rw [List.length_cons] at hroom
    have hpush : execRxPush b (s.withInputs (pushInputs bs ++ r)) = .next _ :=
      execRxPush_of_lt b _ (show s.len < s.cfg.cap by omega)
    have hroom' : s.len + 1 + bs.length ≤ s.cfg.cap := by omega
    rw [State.appendBytes_cons]
    exact (run_succ_of_step _ ((step_of_push_vector b hwf hin).trans hpush)).trans (ih hwf hroom' rfl)

/-- Bytes written right after others continue them. -/
theorem read_writeAll_append {m : List Host.Cell} {a : Nat} {pre : List Byte} (bs : List Byte)
    (hpre : ∀ k, k < pre.length → Memory.read m (a + k) = some (byteAt pre k)) {k : Nat}
    (hk : k < (pre ++ bs).length) :
    Memory.read (Memory.writeAll m (a + pre.length) bs) (a + k) = some (byteAt (pre ++ bs) k) := by
  rw [List.length_append] at hk
  rcases Nat.lt_or_ge k pre.length with hlt | hge
  · rw [Memory.read_writeAll_other _ _ _ _ (.inl (by omega)), hpre k hlt, byteAt, byteAt, List.getD_append _ _ _ _ hlt]
  · have hread := Memory.read_writeAll m (a + pre.length) (k - pre.length) bs (by omega)
    rw [show a + pre.length + (k - pre.length) = a + k by omega] at hread
    rw [hread, byteAt, List.getD_append_right _ _ _ _ hge, List.getD_eq_getElem _ _ (by omega),
      List.getElem?_eq_getElem (by omega)]

theorem byteAt_take {l : List Byte} {n k : Nat} (hk : k < n) : byteAt (l.take n) k = byteAt l k := by
  simp only [byteAt, List.getD_eq_getElem?_getD, List.getElem?_take_of_lt hk]

/-- The bytes from the cursor to the end of the buffer and those appended after them make a whole frame. -/
theorem holdsFrame_appendBytes {s : State} {pre : List Byte} (bs : List Byte) (hend : s.cursor + pre.length = s.len)
    (hcells : ∀ k, k < pre.length → Memory.read s.buf (s.cursor + k) = some (byteAt pre k))
    (hfull : frameLen ≤ (pre ++ bs).length) :
    (s.appendBytes bs).holdsFrame s.cursor ((pre ++ bs).take frameLen) := by
  refine ⟨List.length_take_of_le hfull, ?_, fun k hk => ?_⟩
  · rw [List.length_append] at hfull
    show s.cursor + frameLen ≤ s.len + bs.length
    omega
  · have hread := read_writeAll_append bs hcells (Nat.lt_of_lt_of_le hk hfull)
    rw [hend] at hread
    rw [byteAt_take hk]
    exact hread

/-- Settles O58: the observations keep the candidate, the pushes complete it, and the next observation finds the whole
frame at the same cursor. -/
theorem lateCompletionResolves : Obligations.LateCompletionResolves := by
  intro s m pre bs h hquiet herr hlen hwait hpre hshort hread hvalid hfull hroom hpos hlt hin
  obtain ⟨-, hcells⟩ := readCells_ok s.buf s.cursor pre.length pre hread
  have hdev : byteAt pre 0 = deviceId := by
    obtain ⟨hdev, -, -⟩ := (validFrame_iff _).1 hvalid
    rw [byteAt_take (by decide), byteAt, List.getD_append _ _ _ _ hpos] at hdev
    exact hdev
  have hcand : IncompleteCandidate s :=
    ⟨h.cfg_wf, hquiet, herr, hlen, by omega, show s.len < s.cursor + 8 by omega, hdev ▸ hcells 0 hpos⟩
  rw [List.append_assoc] at hin
  obtain ⟨u, hrun, hu, hinputs⟩ := run_observations m hcand (by omega) hin
  have hpush := run_pushes bs hu.candidate.wf (by rw [hu.len, hu.cfg]; exact hroom) hinputs
  have hframe := holdsFrame_appendBytes (s := u) bs (by rw [hu.cursor, hu.len]; exact hpre)
    (by rw [hu.cursor, hu.buf]; exact hcells) hfull
  have hscan := execScanStep_of_validFrame (s := ((u.appendBytes bs).withInputs []).beginPass) rfl hframe hvalid
  have hfind := run_poll_and_scan (s := (u.withInputs (observeInputs 1)).appendBytes bs) (r := []) hu.candidate.wf
    hu.candidate.quiet hu.candidate.err (Nat.le_add_right_of_le hu.candidate.len_ge) rfl hscan
  exact ⟨_, (run_add _ 2 ((run_add (2 * m) bs.length hrun).trans hpush)).trans hfind, rfl, hu.cursor,
    congrArg (· + bs.length) hu.len⟩

end Sys2Proof.Machine
end

section
/-! Checksum verification of six bytes and a checksum field (43_checksum_verify.md R190 to R192). -/

namespace Sys2Proof.Machine

open Sys2Proof

/-- A byte of the second of two sequences. -/
theorem byteAt_append_right (r t : List Byte) (k : Nat) : byteAt (r ++ t) (r.length + k) = byteAt t k := by
  rw [byteAt, byteAt, List.getD_append_right _ _ _ _ (Nat.le_add_right _ k), Nat.add_sub_cancel_left]

/-- `verify` compares the two bytes after the first six with the halves of their CRC, low byte first (R190). -/
theorem verify_append_pair_iff (m : List Byte) (a b : Byte) (hm : m.length = 6) :
    verify (m ++ [a, b]) = true ↔ lo (crc16 m) = a ∧ hi (crc16 m) = b := by
  have htake : (m ++ [a, b]).take 6 = m := List.take_left' hm
  have hlow : byteAt (m ++ [a, b]) 6 = a := hm ▸ byteAt_append_right m [a, b] 0
  have hhigh : byteAt (m ++ [a, b]) 7 = b := by
    have h := byteAt_append_right m [a, b] 1
    rwa [hm] at h
  rw [verify_iff, htake, hlow, hhigh]

/-- Settles O21: the two bytes that `verify` compares are the ones appended, each with its half of the CRC. -/
theorem verifyAcceptsOnlyTheChecksum : Obligations.VerifyAcceptsOnlyTheChecksum := by
  intro m a b hm
  rw [verify_append_pair_iff m a b hm, List.cons.injEq, List.cons.injEq, eq_comm (a := a), eq_comm (a := b)]
  simp only [and_true]

end Sys2Proof.Machine
end

section
/-! `RESPOND` and the response it sends (44_response_builder.md R200 to R208). -/

namespace Sys2Proof.Machine

open Sys2Proof

/-! ### `RESPOND` -/

/-- Settles O39: what `RESPONSE` hands over, followed by the full reset. -/
theorem respondSendsResponse : Obligations.RespondSendsResponse := by
  intro s f hwf htable hst hf hrange
  obtain ⟨t, hx, hstaged, hkept, ht⟩ := (responseIsBuiltAndHandedOver s f _ hwf htable hst hf hrange).1 rfl
  have hin : inRange s.cfg (startOf f) (countOf f) = true := (inRange_iff _ _ _).2 hrange
  have hsend : sendResponse f s = .ok t := (execResponse_next_iff hst hf hin t).1 hx
  exact ⟨t.fullReset, execRespond_of_sent hst hf hin hsend, hstaged, hkept, congrArg State.fullReset ht⟩

/-- The bounds check fails beyond the table (R203), the sum without wrap. -/
theorem inRange_eq_false_iff (c : Config) (start count : Word) :
    inRange c start count = false ↔ c.tableSize < start.toNat + count.toNat := by
  rw [← Bool.not_eq_true, inRange_iff, Nat.not_le]

/-- A request outside the table under `REFUSE` (93_implementation_defined.md U1). -/
theorem execRespond_of_refuse {s : State} {f : List Byte} (hst : s.st = .resolved) (hf : frameAtCursor s = .ok f)
    (hrange : inRange s.cfg (startOf f) (countOf f) = false) (hrefuse : s.cfg.bounds = .refuse) :
    execRespond s = .refused .outOfRangeRequest := by
  rw [execRespond, if_pos ((respondEnabled_iff s).2 hst)]
  simp only [hf, hrange, hrefuse, Bool.false_eq_true, if_false]

/-- Settles O40: the bounds check fails, and `BOUNDS_POLICY` decides. -/
theorem respondOutOfRange : Obligations.RespondOutOfRange := by
  intro s f hst hf hbeyond
  have hread : frameAtCursor s = .ok f := memRead_of_holdsFrame s s.cursor f hf
  have hrange := (inRange_eq_false_iff s.cfg (startOf f) (countOf f)).2 hbeyond
  exact ⟨execRespond_of_outOfRange hst hread hrange, execRespond_of_refuse hst hread hrange⟩

/-! ### The response -/

/-- A request of at most 127 entries has an exact `byteCount` (R202). -/
theorem byteCountOf_toNat_of_le (count : Word) (h : count.toNat ≤ 127) :
    (byteCountOf count).toNat = 2 * count.toNat := by
  rw [byteCountOf_toNat, Nat.mod_eq_of_lt (by omega)]

/-- A response within the table is three header bytes, two bytes per entry and the checksum (R83). -/
theorem responseFor_length (regs : List Word) (f : List Byte)
    (h : (startOf f).toNat + (countOf f).toNat ≤ regs.length) :
    (responseFor regs f).length = 5 + 2 * (countOf f).toNat := by
  rw [responseFor_eq, withChecksum_length, responseBody_length, requestedValues_length regs f h]
  omega

/-- Bytes with their checksum have zero residue (40_crc_engine.md R117). -/
theorem crc16_withChecksum (r : List Byte) : crc16 (withChecksum r) = 0 :=
  (crc16_append_pair_eq_zero_iff r _ _).2 ⟨rfl, rfl⟩

/-- Settles O43: R6's bounds on `N` and `T`, and the residue of the appended checksum. -/
theorem responseFitsAndChecks : Obligations.ResponseFitsAndChecks := by
  intro c f hwf hin
  obtain ⟨-, -, htx, htable⟩ := (Config.wf_iff c).1 hwf
  have hrange := (inRange_iff c _ _).1 hin
  have hlen := responseFor_length c.regInit f hrange
  refine ⟨byteCountOf_toNat_of_le _ (by omega), hlen, ?_, ?_, crc16_withChecksum _⟩ <;> omega

end Sys2Proof.Machine
end
